-- ==== Sys2Proof/Word.lean ====
section
/-! DEFINITION. The value domains of `00_scope.md` R6: every quantity is an unsigned integer of a
fixed width. -/

namespace Sys2Proof

/-- One raw data item on the byte side, 0 to 255 (R6, `OCTET_W` of R4). -/
abbrev Octet := BitVec 8

/-- The code of one text character, 0 to 255 (R6, `CHAR_W` of R4). -/
abbrev CharCode := BitVec 8

/-- One 6-bit value, 0 to 63: the decode side's "logical symbol" (R6, `SEXTET_W` of R4). -/
abbrev Sextet := BitVec 6

/-- The forward table's storage: 61 registers of 8 bits (`10_state.md` R13). -/
abbrev EncLut := Vector CharCode 61

/-- The reverse table's storage: 256 registers of 8 bits (`10_state.md` R14). -/
abbrev DecLut := Vector (BitVec 8) 256

end Sys2Proof
end

