-- ==== Sys2Proof/Config.lean ====
section
/-! DEFINITION. What an implementation fixes: the parameters of `00_scope.md` R4, and the free values,
which have no body, so that no proof can see what they are. -/

namespace Sys2Proof

/-- The OPEN parameters of R4. `none` is "unbounded". A machine carries them in its state and no step
changes them, so a statement about every state is a statement about every value of them. -/
structure Params where
  /-- `MAX_IN`, the capacity of the input buffer in items -/
  maxIn : Option Nat
  /-- `MAX_OUT`, the capacity of the output buffer in items -/
  maxOut : Option Nat
  /-- `LUT_BASE`, the address of the `LUT` space as the host sees it -/
  lutBase : Nat
  deriving DecidableEq, Repr

/-- The defaults of R4: both capacities unbounded, `LUT_BASE` 0. -/
def Params.standard : Params := { maxIn := none, maxOut := none, lutBase := 0 }

/-- The marker `NONE` of a reverse-table entry (`10_state.md` R14). -/
def noneMark : BitVec 8 := 0xFF#8

/-- `DEFAULT_TAG` of R4: the character `x`. -/
def defaultTag : CharCode := 0x78#8

/-- FREE VALUE (log 6): the octet the core reads at an index of `IN` that the host has not written
since reset (`10_state.md` R29, V3: "any value"). -/
opaque Config.unwrittenIn : Nat → Octet

/-- FREE VALUE (log 8): `POS` after a failed `DEC` (`60_exceptions.md` R118), before its range 0..`IN_LEN`
is applied. -/
opaque Config.freePos : Nat → Nat

/-- FREE VALUE (log 8): `WPOS` after a failed `DEC` (R118), before its range 0..`MAX_OUT` is applied. -/
opaque Config.freeWpos : Nat → Nat

/-- FREE VALUE (log 8): `EB` after a failed `DEC` (R118). -/
opaque Config.freeEb : Nat → Vector Octet 3

/-- FREE VALUE (log 8): `DS` after a failed `DEC` (R118). -/
opaque Config.freeDs : Nat → Vector Sextet 4

/-- FREE VALUE (log 8): `GCNT` after a failed `DEC` (R118), before its range 0..4 is applied. -/
opaque Config.freeGcnt : Nat → Nat

/-- FREE VALUE (log 8): `ESC_PEND` after a failed `DEC` (R118). -/
opaque Config.freeEscPend : Nat → Bool

/-- FREE VALUE (log 8): `MODE = 1` after a failed `DEC` (R118). -/
opaque Config.freeMode : Nat → Bool

end Sys2Proof
end

