-- ==== Sys2Proof/Syntax.lean ====
section
/-! DEFINITION. The syntax: one constructor per row of spec/opcode_table.json, and the encoded forms of
the five formats of that table. -/

namespace Sys2Proof

/-- `MODE` of `10_state.md` R26: which datapath is running. Also names the `OP` field of `ENC` and `DEC`. -/
inductive Mode where
  | enc
  | dec
  deriving DecidableEq, Repr

/-- The commands and the micro-operations. The commands are what the host's 12-bit word selects (R52,
R53, R59); the micro-operations are what the selectors of `30_encoding.md` R54 to R56 select inside `ENC`
and `DEC`. -/
inductive Instr where
  /-- `CFG`, with the length and the first character of the tag string (R51, R60) -/
  | cfg (tlen : BitVec 2) (tchar : CharCode)
  /-- `ENC` (R75) -/
  | enc
  /-- `DEC` (R90) -/
  | dec
  /-- row `cfg__no_operand`: the pseudo-command of R59, word 0x178 -/
  | cfgDefault
  /-- row `ILLEGAL__OP___11`: the reserved words with `OP = 11` (R53) -/
  | illegalOp (low : BitVec 10)
  /-- row `ILLEGAL__ENC_or_DEC_with_CMD_9_0_____0` (R53) -/
  | illegalOperand (m : Mode) (low : BitVec 10)
  /-- `PACK3` (R76) -/
  | pack3
  /-- `PACK2` (R77) -/
  | pack2
  /-- `PACK1` (R78) -/
  | pack1
  /-- `PACK0` (R82) -/
  | pack0
  /-- `UNPACK4` (R94) -/
  | unpack4
  /-- `UNPACK3` (R95) -/
  | unpack3
  /-- `UNPACK2` (R96) -/
  | unpack2
  /-- `UNPACK1` (R97) -/
  | unpack1
  /-- `UNPACK0` (R98) -/
  | unpack0
  /-- row `no_dispatch`: the group is not full and the input has not ended (R54) -/
  | noDispatch (m : Mode) (g : BitVec 3)
  /-- `EMIT.E1`: the sextet 61 (R79) -/
  | emitE1
  /-- `EMIT.E2`: the sextet 62 (R79) -/
  | emitE2
  /-- `EMIT.E3`: the sextet 63 (R79) -/
  | emitE3
  /-- `EMIT.D`: a sextet 0 to 60 (R79) -/
  | emitD (v : Sextet)
  /-- `ESCD.1`: the escape digit `1` (R92) -/
  | escd1
  /-- `ESCD.2`: the escape digit `2` (R92) -/
  | escd2
  /-- `ESCD.3`: the escape digit `3` (R92) -/
  | escd3
  /-- `ESCD.BAD`: any other character after the tag (R92) -/
  | escdBad (d : CharCode)
  /-- `CLS.TAG`: the character is the tag (R91) -/
  | clsTag (c : CharCode)
  /-- `CLS.DIRECT`: the character is a direct symbol (R91) -/
  | clsDirect (c : CharCode)
  /-- `CLS.INVALID`: the character is neither (R91) -/
  | clsInvalid (c : CharCode)
  deriving DecidableEq, Repr

/-- An encoded instruction, in the five formats of spec/opcode_table.json. -/
inductive Code where
  /-- the command word `CMD[11:0]` (R50) -/
  | cmd (w : BitVec 12)
  /-- the group selector (`MODE`, `EOI`, `GCNT`) (R54) -/
  | gsel (w : BitVec 5)
  /-- the escape mux's value (R55) -/
  | sextet (w : BitVec 6)
  /-- the character consumed while `ESC_PEND = 1` (R56) -/
  | escDigit (w : BitVec 8)
  /-- the character consumed while `ESC_PEND = 0` (R56) -/
  | classify (w : BitVec 8)
  deriving DecidableEq, Repr

/-- The instruction an instruction stands for: the pseudo-command expands to `cfg 'x'` (R59), every other
one stands for itself. -/
def Instr.expand : Instr → Instr
  | .cfg tlen tchar => .cfg tlen tchar
  | .enc => .enc
  | .dec => .dec
  | .cfgDefault => .cfg 1#2 0x78#8
  | .illegalOp low => .illegalOp low
  | .illegalOperand m low => .illegalOperand m low
  | .pack3 => .pack3
  | .pack2 => .pack2
  | .pack1 => .pack1
  | .pack0 => .pack0
  | .unpack4 => .unpack4
  | .unpack3 => .unpack3
  | .unpack2 => .unpack2
  | .unpack1 => .unpack1
  | .unpack0 => .unpack0
  | .noDispatch m g => .noDispatch m g
  | .emitE1 => .emitE1
  | .emitE2 => .emitE2
  | .emitE3 => .emitE3
  | .emitD v => .emitD v
  | .escd1 => .escd1
  | .escd2 => .escd2
  | .escd3 => .escd3
  | .escdBad d => .escdBad d
  | .clsTag c => .clsTag c
  | .clsDirect c => .clsDirect c
  | .clsInvalid c => .clsInvalid c

end Sys2Proof
end

