-- ==== Sys2Proof/WellFormed.lean ====
section
/-! DEFINITION. Which terms of `Instr` are instructions: the operand of a row lies in the range the row
gives it. -/

namespace Sys2Proof

/-- The number of items of a full group: 3 octets on encode, 4 logical symbols on decode (R54). -/
def Mode.groupSize : Mode → Nat
  | .enc => 3
  | .dec => 4

/-- The operand checks of spec/opcode_table.json. The classifier's three rows have no check here: theirs
depends on the configured tables (`Instr.selectedBy`). -/
def WellFormed : Instr → Bool
  | .cfg _ _ => true
  | .enc => true
  | .dec => true
  | .cfgDefault => true
  | .illegalOp _ => true
  | .illegalOperand _ low => low ≠ 0#10
  | .pack3 => true
  | .pack2 => true
  | .pack1 => true
  | .pack0 => true
  | .unpack4 => true
  | .unpack3 => true
  | .unpack2 => true
  | .unpack1 => true
  | .unpack0 => true
  | .noDispatch m g => g.toNat < m.groupSize
  | .emitE1 => true
  | .emitE2 => true
  | .emitE3 => true
  | .emitD v => v.toNat ≤ 60
  | .escd1 => true
  | .escd2 => true
  | .escd3 => true
  | .escdBad d => d ≠ 0x31#8 && d ≠ 0x32#8 && d ≠ 0x33#8
  | .clsTag _ => true
  | .clsDirect _ => true
  | .clsInvalid _ => true

/-- The conditions of the classifier's rows (R56): they depend on `TAG` and `DEC_LUT`. Every other row is
selected by its word alone. -/
def Instr.selectedBy (tag : CharCode) (lut : DecLut) : Instr → Bool
  | .cfg _ _ => true
  | .enc => true
  | .dec => true
  | .cfgDefault => true
  | .illegalOp _ => true
  | .illegalOperand _ _ => true
  | .pack3 => true
  | .pack2 => true
  | .pack1 => true
  | .pack0 => true
  | .unpack4 => true
  | .unpack3 => true
  | .unpack2 => true
  | .unpack1 => true
  | .unpack0 => true
  | .noDispatch _ _ => true
  | .emitE1 => true
  | .emitE2 => true
  | .emitE3 => true
  | .emitD _ => true
  | .escd1 => true
  | .escd2 => true
  | .escd3 => true
  | .escdBad _ => true
  | .clsTag c => c = tag
  | .clsDirect c => c ≠ tag && lut[c.toNat]'c.isLt ≠ noneMark
  | .clsInvalid c => c ≠ tag && lut[c.toNat]'c.isLt = noneMark

end Sys2Proof
end

