-- ==== Sys2Proof/Decode.lean ====
section
/-! DEFINITION. Decoding and encoding: the command word (`30_encoding.md` R50 to R53), the internal
selectors (R54 to R56), and the host's view of the opcode table. -/

namespace Sys2Proof

/-- Why a selector gives no instruction. -/
inductive DecodeError where
  /-- a group selector that "never occurs" (R54) -/
  | neverOccurs (g : BitVec 5)
  deriving DecidableEq, Repr

/-- The command decoder: the rows of R52 by match and mask, then the two illegal spaces of R53. The pseudo
row of R59 is not looked at (log 13). -/
def decodeCmd (w : BitVec 12) : Instr :=
  if w &&& 0xC00#12 = 0x000#12 then .cfg (w.extractLsb' 8 2) (w.extractLsb' 0 8)
  else if w &&& 0xFFF#12 = 0x400#12 then .enc
  else if w &&& 0xFFF#12 = 0x800#12 then .dec
  else if w &&& 0xC00#12 = 0xC00#12 then .illegalOp (w.extractLsb' 0 10)
  else if w &&& 0xC00#12 = 0x400#12 then .illegalOperand .enc (w.extractLsb' 0 10)
  else .illegalOperand .dec (w.extractLsb' 0 10)

/-- `MODE` as its bit: 0 for `ENC`, 1 for `DEC` (`10_state.md` R26). -/
def Mode.bit : Mode → BitVec 1
  | .enc => 0#1
  | .dec => 1#1

/-- The mode whose bit is `b`. -/
def Mode.ofBit (b : BitVec 1) : Mode := if b = 1#1 then .dec else .enc

/-- The group dispatcher's truth table (R54). -/
def decodeGsel (g : BitVec 5) : Except DecodeError Instr :=
  if g = 0b00011#5 then .ok .pack3
  else if g = 0b01010#5 then .ok .pack2
  else if g = 0b01001#5 then .ok .pack1
  else if g = 0b01000#5 then .ok .pack0
  else if g = 0b10100#5 then .ok .unpack4
  else if g = 0b11011#5 then .ok .unpack3
  else if g = 0b11010#5 then .ok .unpack2
  else if g = 0b11001#5 then .ok .unpack1
  else if g = 0b11000#5 then .ok .unpack0
  else if g.extractLsb' 3 1 = 0#1
      ∧ (g.extractLsb' 0 3).toNat < (Mode.ofBit (g.extractLsb' 4 1)).groupSize then
    .ok (.noDispatch (Mode.ofBit (g.extractLsb' 4 1)) (g.extractLsb' 0 3))
  else .error (.neverOccurs g)

/-- The escape mux's selection (R55). -/
def decodeSextet (v : Sextet) : Instr :=
  if v = 0b111101#6 then .emitE1
  else if v = 0b111110#6 then .emitE2
  else if v = 0b111111#6 then .emitE3
  else .emitD v

/-- The escape-digit resolver's selection, for a character consumed while `ESC_PEND = 1` (R56, R92). -/
def decodeEscDigit (d : CharCode) : Instr :=
  if d = 0x31#8 then .escd1
  else if d = 0x32#8 then .escd2
  else if d = 0x33#8 then .escd3
  else .escdBad d

/-- The classifier's selection, for a character consumed while `ESC_PEND = 0`, tested in the order of R56
and R91. -/
def decodeClassify (tag : CharCode) (lut : DecLut) (c : CharCode) : Instr :=
  if c = tag then .clsTag c
  else if lut[c.toNat]'c.isLt ≠ noneMark then .clsDirect c
  else .clsInvalid c

/-- The decoder of all five formats. Only the classifier looks at the configured tables. -/
def decode (tag : CharCode) (lut : DecLut) : Code → Except DecodeError Instr
  | .cmd w => .ok (decodeCmd w)
  | .gsel w => decodeGsel w
  | .sextet w => .ok (decodeSextet w)
  | .escDigit w => .ok (decodeEscDigit w)
  | .classify w => .ok (decodeClassify tag lut w)

/-- The encoder: the words of spec/opcode_table.json. -/
def encode : Instr → Code
  | .cfg tlen tchar => .cmd (0b00#2 ++ tlen ++ tchar)
  | .enc => .cmd 0x400#12
  | .dec => .cmd 0x800#12
  | .cfgDefault => .cmd 0x178#12
  | .illegalOp low => .cmd (0b11#2 ++ low)
  | .illegalOperand .enc low => .cmd (0b01#2 ++ low)
  | .illegalOperand .dec low => .cmd (0b10#2 ++ low)
  | .pack3 => .gsel 0b00011#5
  | .pack2 => .gsel 0b01010#5
  | .pack1 => .gsel 0b01001#5
  | .pack0 => .gsel 0b01000#5
  | .unpack4 => .gsel 0b10100#5
  | .unpack3 => .gsel 0b11011#5
  | .unpack2 => .gsel 0b11010#5
  | .unpack1 => .gsel 0b11001#5
  | .unpack0 => .gsel 0b11000#5
  | .noDispatch m g => .gsel (m.bit ++ 0#1 ++ g)
  | .emitE1 => .sextet 0b111101#6
  | .emitE2 => .sextet 0b111110#6
  | .emitE3 => .sextet 0b111111#6
  | .emitD v => .sextet v
  | .escd1 => .escDigit 0b00110001#8
  | .escd2 => .escDigit 0b00110010#8
  | .escd3 => .escDigit 0b00110011#8
  | .escdBad d => .escDigit d
  | .clsTag c => .classify c
  | .clsDirect c => .classify c
  | .clsInvalid c => .classify c

/-- The instruction a selector of unnamed format names (log 12): a table word of at most 8 bits says no
format, so the rows of fixed pattern are tried first (`GSEL`, then `SEXTET`, then `ESCDIGIT`), then the
formats' default rows in the same order. -/
def decodeSelector (w : Nat) : Instr :=
  let g := decodeGsel (BitVec.ofNat 5 w)
  let v := decodeSextet (BitVec.ofNat 6 w)
  let d := decodeEscDigit (BitVec.ofNat 8 w)
  let defaultRow : Instr :=
    match g with
    | .ok i => if w < 32 then i else if w < 61 then v else d
    | .error _ => if w < 61 then v else d
  if w = 0x31 ∨ w = 0x32 ∨ w = 0x33 then d
  else if w = 0x3D ∨ w = 0x3E ∨ w = 0x3F then v
  else defaultRow

/-- The host's question (log 12): the instruction the decoder reads from a table row's word `w` of `nbits`
bits. More than 8 bits is a command word; 5 bits or fewer is a group selector; 6 bits is a sextet; 7 or 8
bits is a selector of unnamed format. -/
def decodeTableWord (nbits w : Nat) : Option Instr :=
  if 8 < nbits then
    if w < 4096 then some (decodeCmd (BitVec.ofNat 12 w)) else none
  else if nbits ≤ 5 then
    if w < 32 then (decodeGsel (BitVec.ofNat 5 w)).toOption else none
  else if nbits = 6 then
    if w < 64 then some (decodeSextet (BitVec.ofNat 6 w)) else none
  else if w < 256 then some (decodeSelector w)
  else none

end Sys2Proof
end

