-- ==== Sys2Proof/Machine/State.lean ====
section
/-! DEFINITION. The machine's state as plain data, its faults and refusals, and the state after reset. -/

namespace Sys2Proof.Machine

/-- The outcome codes a command can leave in `ERR` (`60_exceptions.md` R110). Code 7 is reserved and never
written, so it has no constructor (V6). -/
inductive ErrCode where
  | ok
  | invalidConfiguration
  | unrecognizedCharacter
  | invalidEscape
  | danglingSymbol
  | notConfigured
  | illegalCommand
  deriving DecidableEq, Repr

/-- A buffer's contents: (index, item) pairs, indices strictly rising. An index that is not listed holds
NO VALUE (`10_state.md` R29; log 6). -/
abbrev Mem := List Host.Cell

/-- What the host can do (`10_state.md` R10, `20_memory.md` R30, `70_reset_and_hazards.md` R130). -/
inductive HostAct where
  /-- present a command word and do nothing until `BUSY = 0` (R132; the operation level of R5) -/
  | call (w : BitVec 12)
  /-- present a command word and go on at once (the micro-step level of R5) -/
  | issue (w : BitVec 12)
  /-- do nothing: the core moves -/
  | wait
  | writeIn (i : Nat) (v : BitVec 8)
  | writeInLen (n : Nat)
  | readIn (i : Nat)
  | readInLen
  | readOut (i : Nat)
  | readOutLen
  | readLut (a : Nat)
  | readStatus
  | writeOut (i : Nat) (v : BitVec 8)
  | writeOutLen (n : Nat)
  | writeLut (a : Nat) (v : BitVec 8)
  | writeStatus (w : BitVec 5)
  /-- the reset event (R130) -/
  | reset
  deriving DecidableEq, Repr

/-- What the host's last access answered (log 4). The model's own. -/
inductive Reply where
  /-- nothing was asked -/
  | silent
  /-- an item of a space -/
  | item (v : BitVec 8)
  /-- a length register -/
  | count (n : Nat)
  /-- the word `STATUS` (`10_state.md` R27) -/
  | status (w : BitVec 5)
  /-- the access was refused: no value, no effect -/
  | refused
  deriving DecidableEq, Repr

/-- The state: everything the spec gives the machine (`10_state.md` R10), the open parameters, and the
model's own fields `host`, `reply` and `draws`. -/
structure State where
  /-- the open parameters of R4; no step changes them -/
  params : Params
  /-- `TAG` (R11) -/
  tag : CharCode
  /-- `CFG_OK` (R12) -/
  cfgOk : Bool
  /-- `ENC_LUT[0..60]` (R13) -/
  encLut : EncLut
  /-- `DEC_LUT[0..255]` (R14) -/
  decLut : DecLut
  /-- `ERR` (R16) -/
  err : ErrCode
  /-- `BUSY` (R17) -/
  busy : Bool
  /-- `IN_LEN` (R18) -/
  inLen : Nat
  /-- the space `IN` (R30, R32) -/
  inBuf : Mem
  /-- `OUT_LEN` (R19) -/
  outLen : Nat
  /-- the space `OUT` (R30, R33) -/
  outBuf : Mem
  /-- `POS` (R20) -/
  pos : Nat
  /-- `WPOS` (R21) -/
  wpos : Nat
  /-- `EB[0..2]` (R22); entries at or above `GCNT` are stale (log 23) -/
  eb : Vector Octet 3
  /-- `DS[0..3]` (R23); entries at or above `GCNT` are stale (log 23) -/
  ds : Vector Sextet 4
  /-- `GCNT` (R24) -/
  gcnt : BitVec 3
  /-- `ESC_PEND` (R25) -/
  escPend : Bool
  /-- `MODE` (R26) -/
  mode : Mode
  /-- the host's actions not yet made, the next one first (the model's own, log 2) -/
  host : List HostAct
  /-- what the host's last access answered (the model's own, log 4) -/
  reply : Reply
  /-- how many times free values were drawn (the model's own, log 8) -/
  draws : Nat
  deriving DecidableEq, Repr

/-- Why the machine stops. None of these is an error of the block: the block's errors are outcomes of a
command, held in `ERR` (R110). All three are SAFE: the model stops where the spec says that the case never
occurs, so a claim may become unprovable and no false claim becomes provable. -/
inductive Fault where
  /-- the group dispatcher met a selector that "never occurs" (R54). Raised by `dispatch`. Safe (log 11). -/
  | selectorNeverOccurs (g : BitVec 5)
  /-- a micro-operation was run with an operand its selector never gives it. Raised by `execEmitD`,
  `execClsDirect` and `runSelected`. Safe (log 11). -/
  | operandNeverSelected (i : Instr)
  /-- the core wrote `OUT` at or above `MAX_OUT`, an index that names nothing (R36); R42 rules it out.
  Raised by `putItem`. Safe (log 16). -/
  | outIndexNamesNothing (i : Nat)
  deriving DecidableEq, Repr

/-- Why the model gives an instruction no meaning. -/
inductive Refusal where
  /-- an instruction without a meaning. Raised by no arm of `exec`. Safe. -/
  | notModelled (mnemonic : String)
  deriving DecidableEq, Repr

/-- What a step, a meaning and every partial operation answer. -/
abbrev Result := Host.Outcome State Fault Refusal

/-- The state after reset of a machine with parameters `p` (`10_state.md` R29). The values of `TAG`, the
tables and the per-call registers are the model's (log 5). -/
def State.resetWith (p : Params) : State where
  params := p
  tag := 0#8
  cfgOk := false
  encLut := Vector.replicate 61 0#8
  decLut := Vector.replicate 256 0#8
  err := .ok
  busy := false
  inLen := 0
  inBuf := []
  outLen := 0
  outBuf := []
  pos := 0
  wpos := 0
  eb := Vector.replicate 3 0#8
  ds := Vector.replicate 4 0#6
  gcnt := 0#3
  escPend := false
  mode := .enc
  host := []
  reply := .silent
  draws := 0

/-- The state after reset, with the parameters at the defaults of R4. -/
def State.reset : State := State.resetWith Params.standard

end Sys2Proof.Machine
end

