-- ==== Sys2Proof/Machine/Ops.lean ====
section
/-! DEFINITION. The named operations over buffers and registers, and taking an error: what every meaning
is made of. -/

namespace Sys2Proof.Machine

/-! ### Sequencing of partial operations -/

/-- `r`, then `k` on the state it leaves; a fault or a refusal ends the sequence. -/
def seq (r : Result) (k : State → Result) : Result :=
  match r with
  | .next s => k s
  | .fault f => .fault f
  | .refused q => .refused q

/-! ### Buffers -/

/-- `MemRead` of one item (R8): `none` where the index holds no value. -/
def Mem.read : Mem → Nat → Option (BitVec 8)
  | [], _ => none
  | (a, v) :: rest, i => if a = i then some v else Mem.read rest i

/-- `MemWrite` of one item (R8); keeps the indices strictly rising. -/
def Mem.write : Mem → Nat → BitVec 8 → Mem
  | [], i, v => [(i, v)]
  | (a, b) :: rest, i, v =>
    if i < a then (i, v) :: (a, b) :: rest
    else if i = a then (i, v) :: rest
    else (a, b) :: Mem.write rest i v

/-- The canonical form: indices strictly rising. An unlisted index holds no value, so no entry can equal
what an unlisted index reads as. -/
abbrev Mem.wf (m : Mem) : Prop := m.Pairwise (fun p q => p.1 < q.1)

/-- The first `n` items. -/
def Mem.items (m : Mem) (n : Nat) : List (Option (BitVec 8)) := (List.range n).map m.read

/-- `v`s written at consecutive indices from `i`, the first at `i` (R34). -/
def Mem.writeAll : Mem → Nat → List (BitVec 8) → Mem
  | m, _, [] => m
  | m, i, v :: rest => Mem.writeAll (m.write i v) (i + 1) rest

/-- Is `i` an index of `IN` (`20_memory.md` R36)? -/
def inHolds (p : Params) (i : Nat) : Bool :=
  match p.maxIn with
  | none => true
  | some m => i < m

/-- Is `i` an index of `OUT` (R36)? -/
def outHolds (p : Params) (i : Nat) : Bool :=
  match p.maxOut with
  | none => true
  | some m => i < m

/-- Can `IN_LEN` hold `n` (`10_state.md` R18: its range is 0..`MAX_IN`)? -/
def inLenHolds (p : Params) (n : Nat) : Bool :=
  match p.maxIn with
  | none => true
  | some m => n ≤ m

/-- `OUT[WPOS] <- c; WPOS <- WPOS + 1`. An index at or above `MAX_OUT` names nothing (R36); R42 says the
core never produces one (log 16). -/
def putItem (c : BitVec 8) (s : State) : Result :=
  if outHolds s.params s.wpos then
    .next { s with outBuf := s.outBuf.write s.wpos c, wpos := s.wpos + 1 }
  else .fault (.outIndexNamesNothing s.wpos)

/-- Write items one after the other, the first at the lowest index (R34). -/
def putItems : List (BitVec 8) → State → Result
  | [], s => .next s
  | c :: rest, s => seq (putItem c s) (putItems rest)

/-- Are the first `n` indices all indices of `OUT`? -/
def outRoom (p : Params) (n : Nat) : Bool :=
  match p.maxOut with
  | none => true
  | some m => n ≤ m

/-- The state after the items `l` are written at `WPOS`: what `putItems l` leaves where there is room. -/
def storeItems (l : List (BitVec 8)) (s : State) : State :=
  { s with outBuf := s.outBuf.writeAll s.wpos l, wpos := s.wpos + l.length }

/-! ### Acceptance and completion -/

/-- A command presented while `BUSY = 1` is not accepted: it changes no state and is not queued
(`70_reset_and_hazards.md` R133). -/
def whenIdle (s : State) (accepted : Result) : Result :=
  if s.busy then .next s else accepted

/-- The end of an operation that succeeded (R82, R101): `GCNT <- 0; OUT_LEN <- WPOS; BUSY <- 0`. The other
per-call registers keep what the micro-steps left (log 9), and so does `OUT` at or above `OUT_LEN` (log 17). -/
def complete (s : State) : State :=
  { s with gcnt := 0#3, outLen := s.wpos, busy := false }

/-! ### Taking an error

There is no return from one: the block is idle afterwards and the next command is accepted normally
(`60_exceptions.md` R118, R120). -/

/-- The per-call registers become unspecified (R118): each a free value within its range (R20, R21, R24;
log 8). -/
def forgetDatapath (s : State) : State :=
  { s with
    pos := Config.freePos s.draws % (s.inLen + 1)
    wpos :=
      match s.params.maxOut with
      | none => Config.freeWpos s.draws
      | some m => Config.freeWpos s.draws % (m + 1)
    eb := Config.freeEb s.draws
    ds := Config.freeDs s.draws
    gcnt := BitVec.ofNat 3 (Config.freeGcnt s.draws % 5)
    escPend := Config.freeEscPend s.draws
    mode := if Config.freeMode s.draws then .dec else .enc
    draws := s.draws + 1 }

/-- A running decode aborts (R102, R118): `ERR` is the cause's code, `OUT_LEN` 0, `BUSY` 0; what `OUT`
holds is unspecified, so it holds no value (log 7). -/
def abort (e : ErrCode) (s : State) : State :=
  { forgetDatapath s with err := e, outLen := 0, outBuf := [], busy := false }

/-- What an error does to the state, by cause: the table of `60_exceptions.md` R118. -/
def raiseError (e : ErrCode) (s : State) : State :=
  match e with
  | .ok => { s with err := .ok }
  | .invalidConfiguration => { s with err := .invalidConfiguration }
  | .unrecognizedCharacter => abort .unrecognizedCharacter s
  | .invalidEscape => abort .invalidEscape s
  | .danglingSymbol => abort .danglingSymbol s
  | .notConfigured => { s with err := .notConfigured, outLen := 0 }
  | .illegalCommand => { s with err := .illegalCommand }

end Sys2Proof.Machine
end

