-- ==== Sys2Proof/Machine/Fetch.lean ====
section
/-! DEFINITION. How the host places one instruction so that the very next step runs it (log 3, log 12). -/

namespace Sys2Proof.Machine

/-- The next input item is `c`. -/
def withNextItem (c : BitVec 8) (s : State) : State :=
  { s with inBuf := s.inBuf.write s.pos c, inLen := max s.inLen (s.pos + 1) }

/-- A running encode about to take the item that makes the count `g`. -/
def primeLoad (g : BitVec 3) (s : State) : State :=
  withNextItem 0#8 { s with busy := true, mode := .enc, gcnt := g - 1#3 }

/-- A running encode at the end of its input with `g` octets held. -/
def primeFlush (g : BitVec 3) (s : State) : State :=
  { s with busy := true, mode := .enc, gcnt := g, pos := s.inLen }

/-- A running decode about to take the character `c`, with `g` symbols held. -/
def primeChar (pending : Bool) (g : BitVec 3) (c : CharCode) (s : State) : State :=
  withNextItem c { s with busy := true, mode := .dec, gcnt := g, escPend := pending }

/-- A running decode at the end of its input with `g` symbols held. -/
def primeEnd (g : BitVec 3) (s : State) : State :=
  { s with busy := true, mode := .dec, gcnt := g, escPend := false, pos := s.inLen }

/-- A running encode at the end of its input whose 1-octet tail begins with the sextet `v`. -/
def primeEmit (v : Sextet) (s : State) : State :=
  primeFlush 1#3 { s with eb := s.eb.set 0 (v ++ 0#2) }

/-- The host presents the command word `w`, to an idle block. -/
def primeCommand (w : Nat) (s : State) : State :=
  { s with busy := false, host := .call (BitVec.ofNat 12 w) :: s.host }

/-- The registers at which the core's next micro-step selects `i`. -/
def primeSelected (i : Instr) (s : State) : State :=
  match i with
  | .cfg _ _ => s
  | .enc => s
  | .dec => s
  | .cfgDefault => s
  | .illegalOp _ => s
  | .illegalOperand _ _ => s
  | .pack3 => primeLoad 3#3 s
  | .pack2 => primeFlush 2#3 s
  | .pack1 => primeFlush 1#3 s
  | .pack0 => primeFlush 0#3 s
  | .unpack4 => primeChar true 3#3 0x31#8 s
  | .unpack3 => primeEnd 3#3 s
  | .unpack2 => primeEnd 2#3 s
  | .unpack1 => primeEnd 1#3 s
  | .unpack0 => primeEnd 0#3 s
  | .noDispatch .enc g => primeLoad (if g = 0#3 then 1#3 else g) s
  | .noDispatch .dec g => primeChar false g s.tag s
  | .emitE1 => primeEmit 61#6 s
  | .emitE2 => primeEmit 62#6 s
  | .emitE3 => primeEmit 63#6 s
  | .emitD v => primeEmit v s
  | .escd1 => primeChar true 0#3 0x31#8 s
  | .escd2 => primeChar true 0#3 0x32#8 s
  | .escd3 => primeChar true 0#3 0x33#8 s
  | .escdBad d => primeChar true 0#3 d s
  | .clsTag c => primeChar false 0#3 c s
  | .clsDirect c => primeChar false 0#3 c s
  | .clsInvalid c => primeChar false 0#3 c s

/-- Place a table word: a command word at the command port; for a selector, the registers from which the
core forms it, and the host waiting. -/
def placeWord (s : State) (nbits w : Nat) : State :=
  match decodeTableWord nbits w with
  | none => s
  | some i =>
    if 8 < nbits then primeCommand w s
    else { primeSelected i s with host := .wait :: s.host }

end Sys2Proof.Machine
end

