-- ==== Sys2Proof/Machine/Builder.lean ====
section
/-! DEFINITION. The symbol-table builder (`40_table_builder.md`): the alphabet, the tag check, the two
tables, and the meanings of `CFG`, of its pseudo-command and of the illegal words. -/

namespace Sys2Proof.Machine

/-- `ALPHA[i]` for `i` in 0..61: digits, uppercase, lowercase (R7; codes are ASCII, log 18). -/
def alpha (i : Nat) : CharCode :=
  if i ≤ 9 then BitVec.ofNat 8 (0x30 + i)
  else if i ≤ 35 then BitVec.ofNat 8 (0x41 + (i - 10))
  else BitVec.ofNat 8 (0x61 + (i - 36))

/-- `IsAlnum` (R61). -/
def isAlnum (c : CharCode) : Bool :=
  (0x30 ≤ c.toNat && c.toNat ≤ 0x39) || (0x41 ≤ c.toNat && c.toNat ≤ 0x5A)
    || (0x61 ≤ c.toNat && c.toNat ≤ 0x7A)

/-- `AlphaIndex`, meaningful when `isAlnum c` (R62). -/
def alphaIndex (c : CharCode) : Nat :=
  if c.toNat ≤ 0x39 then c.toNat - 0x30
  else if c.toNat ≤ 0x5A then c.toNat - 0x41 + 10
  else c.toNat - 0x61 + 36

/-- `TagValid` (R63). -/
def tagValid (tlen : BitVec 2) (tchar : CharCode) : Bool := tlen = 1#2 && isAlnum tchar

/-- `BuildEnc(k)`, in the closed form of R65; `buildEncLoop` is R65's loop. -/
def buildEnc (k : Nat) : EncLut :=
  Vector.ofFn fun v : Fin 61 => if v.val < k then alpha v.val else alpha (v.val + 1)

/-- `BuildEnc(k)` as the loop of R65: the alphabet in its order, the character of index `k` skipped. -/
def buildEncLoop (k : Nat) : List CharCode :=
  (List.range 62).foldl (fun enc i => if i ≠ k then enc ++ [alpha i] else enc) []

/-- `BuildDec(enc)`: every entry `NONE`, then `dec[enc[v]] <- v` for `v` in 0..60 (R66). -/
def buildDec (enc : EncLut) : DecLut :=
  (List.finRange 61).foldl
    (fun dec v => dec.set enc[v].toNat (BitVec.ofNat 8 v.val) enc[v].isLt)
    (Vector.replicate 256 noneMark)

/-- The commit of a successful `CFG`: the whole table set at once (R67). -/
def commitTables (tchar : CharCode) (s : State) : State :=
  { s with
    tag := tchar
    encLut := buildEnc (alphaIndex tchar)
    decLut := buildDec (buildEnc (alphaIndex tchar))
    cfgOk := true
    err := .ok }

/-- The operation of `CFG` (R60): the check comes before the first write. -/
def configure (tlen : BitVec 2) (tchar : CharCode) (s : State) : State :=
  if tagValid tlen tchar then commitTables tchar s else raiseError .invalidConfiguration s

/-- `CFG` (R60). -/
def execCfg (tlen : BitVec 2) (tchar : CharCode) (s : State) : Result :=
  whenIdle s (.next (configure tlen tchar s))

/-- The pseudo-command `cfg` with no operand: `cfg 'x'` (R59). -/
def execCfgDefault (s : State) : Result :=
  whenIdle s (.next (configure 1#2 defaultTag s))

/-- A word with `OP = 11` (R53, R116). -/
def execIllegalOp (_low : BitVec 10) (s : State) : Result :=
  whenIdle s (.next (raiseError .illegalCommand s))

/-- A word with the `OP` of `ENC` or `DEC` and a non-zero operand field (R53, R116). -/
def execIllegalOperand (_m : Mode) (_low : BitVec 10) (s : State) : Result :=
  whenIdle s (.next (raiseError .illegalCommand s))

end Sys2Proof.Machine
end

