-- ==== Sys2Proof/Machine/Operands.lean ====
section
/-! DEFINITION. The operand forms: the input item, the group registers, the group selector, and the pack and
unpack formulas over them. -/

namespace Sys2Proof.Machine

/-! ### The input item -/

/-- The core's read `IN[i]` (R32). An item the host has not written since reset is a free value (log 6). -/
def coreReadIn (s : State) (i : Nat) : Octet :=
  (s.inBuf.read i).getD (Config.unwrittenIn i)

/-- The complete input `IN[0 .. IN_LEN-1]` as the core reads it (R32, R34). -/
def inputItems (s : State) : List Octet := (List.range s.inLen).map (coreReadIn s)

/-- `EB[GCNT] <- IN[POS]; POS <- POS + 1; GCNT <- GCNT + 1`, the first half of the load micro-step (R81).
The other entries of `EB` keep what they held (log 23). -/
def loadOctet (s : State) : State :=
  { s with
    eb := s.eb.setIfInBounds s.gcnt.toNat (coreReadIn s s.pos)
    pos := s.pos + 1
    gcnt := s.gcnt + 1#3 }

/-- `DS[GCNT] <- v; GCNT <- GCNT + 1` (R100). The other entries of `DS` keep what they held (log 23). -/
def pushSymbol (v : Sextet) (s : State) : State :=
  { s with ds := s.ds.setIfInBounds s.gcnt.toNat v, gcnt := s.gcnt + 1#3 }

/-- `DEC_LUT[c]` (R14). -/
def decLutAt (s : State) (c : CharCode) : BitVec 8 := s.decLut[c.toNat]'c.isLt

/-! ### The group selector -/

/-- `GSEL = (MODE, EOI, GCNT)` (R54). -/
def gsel (s : State) (eoi : Bool) : BitVec 5 :=
  s.mode.bit ++ (if eoi then 1#1 else 0#1) ++ s.gcnt

/-! ### Pack (R76 to R78) -/

/-- The four sextets of a full group (R76). -/
def pack3 (a b c : Octet) : List Sextet :=
  [ (a >>> 2).setWidth 6,
    (((a &&& 3#8) <<< 4) ||| (b >>> 4)).setWidth 6,
    (((b &&& 0xF#8) <<< 2) ||| (c >>> 6)).setWidth 6,
    (c &&& 0x3F#8).setWidth 6 ]

/-- The three sextets of a 2-octet tail; the last is unshifted (R77). -/
def pack2 (a b : Octet) : List Sextet :=
  [ (a >>> 2).setWidth 6,
    (((a &&& 3#8) <<< 4) ||| (b >>> 4)).setWidth 6,
    (b &&& 0xF#8).setWidth 6 ]

/-- The two sextets of a 1-octet tail; the last is unshifted (R78). -/
def pack1 (a : Octet) : List Sextet :=
  [ (a >>> 2).setWidth 6,
    (a &&& 3#8).setWidth 6 ]

/-! ### Unpack (R94 to R96); all in 8 bits, which R106 says loses nothing -/

/-- `(b0 << 2) | (b1 >> 4)`. -/
def firstOctet (b0 b1 : Sextet) : Octet :=
  (b0.setWidth 8 <<< 2) ||| (b1.setWidth 8 >>> 4)

/-- The three octets of a full group (R94). -/
def unpack4 (b0 b1 b2 b3 : Sextet) : List Octet :=
  [ firstOctet b0 b1,
    ((b1.setWidth 8 &&& 0xF#8) <<< 4) ||| (b2.setWidth 8 >>> 2),
    ((b2.setWidth 8 &&& 3#8) <<< 6) ||| b3.setWidth 8 ]

/-- The two octets of a 3-symbol tail; the last symbol enters unshifted (R95). -/
def unpack3 (b0 b1 b2 : Sextet) : List Octet :=
  [ firstOctet b0 b1,
    ((b1.setWidth 8 &&& 0xF#8) <<< 4) ||| b2.setWidth 8 ]

/-- The octet of a 2-symbol tail; the last symbol enters unshifted (R96). -/
def unpack2 (b0 b1 : Sextet) : List Octet :=
  [ (b0.setWidth 8 <<< 2) ||| b1.setWidth 8 ]

end Sys2Proof.Machine
end

