-- ==== Sys2Proof/Machine/Pack.lean ====
section
/-! DEFINITION. The encode datapath's micro-operations (`41_encode.md`): the escape mux and the pack
operations. A dispatch at the end of the input also does the flush micro-step's last writes (R82; log 22). -/

namespace Sys2Proof.Machine

/-- Write the direct symbol of `v`, 0 to 60 (R79, `EMIT.D`). -/
def execEmitD (v : Sextet) (s : State) : Result :=
  match s.encLut[v.toNat]? with
  | some c => putItem c s
  | none => .fault (.operandNeverSelected (.emitD v))

/-- Write an escape: the tag, then the digit `0x30 + (v - 60)` (R47, R79). -/
def emitEscape (v : Nat) (s : State) : Result :=
  putItems [s.tag, BitVec.ofNat 8 (0x30 + (v - 60))] s

/-- `EMIT.E1`: the symbol of 61 (R79). -/
def execEmitE1 (s : State) : Result := emitEscape 61 s

/-- `EMIT.E2`: the symbol of 62 (R79). -/
def execEmitE2 (s : State) : Result := emitEscape 62 s

/-- `EMIT.E3`: the symbol of 63 (R79). -/
def execEmitE3 (s : State) : Result := emitEscape 63 s

/-- `EMIT(v)`: the escape mux (R55, R79). -/
def emit (v : Sextet) (s : State) : Result :=
  if v = 61#6 then execEmitE1 s
  else if v = 62#6 then execEmitE2 s
  else if v = 63#6 then execEmitE3 s
  else execEmitD v s

/-- Emit sextets in order. -/
def emitAll : List Sextet → State → Result
  | [], s => .next s
  | v :: rest, s => seq (emit v s) (emitAll rest)

/-- `PACK3`, dispatched by the load micro-step that fills the group (R76, R81). `EB` keeps the octets of the
group just emitted, now above `GCNT`, where V5 allows any value (log 23). -/
def execPack3 (s : State) : Result :=
  seq (emitAll (pack3 s.eb[0] s.eb[1] s.eb[2]) s) fun t => .next { t with gcnt := 0#3 }

/-- `PACK2`, dispatched by the flush micro-step (R77, R82). -/
def execPack2 (s : State) : Result :=
  seq (emitAll (pack2 s.eb[0] s.eb[1]) s) fun t => .next (complete t)

/-- `PACK1`, dispatched by the flush micro-step (R78, R82). -/
def execPack1 (s : State) : Result :=
  seq (emitAll (pack1 s.eb[0]) s) fun t => .next (complete t)

/-- `PACK0`: nothing is emitted and the operation is complete (R82, R84). -/
def execPack0 (s : State) : Result := .next (complete s)

/-- Nothing is dispatched and the datapath takes the next item (R54). -/
def execNoDispatch (_m : Mode) (_g : BitVec 3) (s : State) : Result := .next s

end Sys2Proof.Machine
end

