-- ==== Sys2Proof/Machine/Unpack.lean ====
section
/-! DEFINITION. The decode datapath's micro-operations (`42_decode.md`): classifier, escape-digit resolver,
unpack. A dispatch at the end of the input also does the end micro-step's last writes (R101; log 22). -/

namespace Sys2Proof.Machine

/-- `CLS.TAG`: an escape begins (R91, R100). -/
def execClsTag (_c : CharCode) (s : State) : Result := .next { s with escPend := true }

/-- `CLS.DIRECT`: the logical symbol `DEC_LUT[c]`, 0 to 60 (R91, R100). -/
def execClsDirect (c : CharCode) (s : State) : Result :=
  if decLutAt s c ≠ noneMark then .next (pushSymbol ((decLutAt s c).setWidth 6) s)
  else .fault (.operandNeverSelected (.clsDirect c))

/-- `CLS.INVALID`: an unrecognized character (R91, R112). -/
def execClsInvalid (_c : CharCode) (s : State) : Result :=
  .next (raiseError .unrecognizedCharacter s)

/-- The escape is resolved: the logical symbol `v`, and `ESC_PEND <- 0` (R100). -/
def resolveEscape (v : Sextet) (s : State) : State :=
  { pushSymbol v s with escPend := false }

/-- `ESCD.1`: the logical symbol 61 (R92). -/
def execEscd1 (s : State) : Result := .next (resolveEscape 61#6 s)

/-- `ESCD.2`: the logical symbol 62 (R92). -/
def execEscd2 (s : State) : Result := .next (resolveEscape 62#6 s)

/-- `ESCD.3`: the logical symbol 63 (R92). -/
def execEscd3 (s : State) : Result := .next (resolveEscape 63#6 s)

/-- `ESCD.BAD`: an invalid escape (R92, R113). -/
def execEscdBad (_d : CharCode) (s : State) : Result := .next (raiseError .invalidEscape s)

/-- `UNPACK4`, dispatched by the character micro-step that fills the group (R94, R100). `DS` keeps the symbols
of the group just written, now above `GCNT`, where V5 allows any value (log 23). -/
def execUnpack4 (s : State) : Result :=
  seq (putItems (unpack4 s.ds[0] s.ds[1] s.ds[2] s.ds[3]) s) fun t => .next { t with gcnt := 0#3 }

/-- `UNPACK3`, dispatched by the end micro-step (R95, R101). -/
def execUnpack3 (s : State) : Result :=
  seq (putItems (unpack3 s.ds[0] s.ds[1] s.ds[2]) s) fun t => .next (complete t)

/-- `UNPACK2`, dispatched by the end micro-step (R96, R101). -/
def execUnpack2 (s : State) : Result :=
  seq (putItems (unpack2 s.ds[0] s.ds[1]) s) fun t => .next (complete t)

/-- `UNPACK1`: a dangling symbol, whatever its value (R97, R114). -/
def execUnpack1 (s : State) : Result := .next (raiseError .danglingSymbol s)

/-- `UNPACK0`: no octet, and the operation is complete (R98, R101). -/
def execUnpack0 (s : State) : Result := .next (complete s)

end Sys2Proof.Machine
end

