-- ==== Sys2Proof/Machine/Micro.lean ====
section
/-! DEFINITION. The micro-steps of a running operation (`41_encode.md` R81, R82; `42_decode.md` R100,
R101): each forms a selector, decodes it, and runs the micro-operation it selects. -/

namespace Sys2Proof.Machine

/-- Run a selected micro-operation. No selector selects a command. -/
def runSelected (i : Instr) (s : State) : Result :=
  match i with
  | .cfg tlen tchar => .fault (.operandNeverSelected (.cfg tlen tchar))
  | .enc => .fault (.operandNeverSelected .enc)
  | .dec => .fault (.operandNeverSelected .dec)
  | .cfgDefault => .fault (.operandNeverSelected .cfgDefault)
  | .illegalOp low => .fault (.operandNeverSelected (.illegalOp low))
  | .illegalOperand m low => .fault (.operandNeverSelected (.illegalOperand m low))
  | .pack3 => execPack3 s
  | .pack2 => execPack2 s
  | .pack1 => execPack1 s
  | .pack0 => execPack0 s
  | .unpack4 => execUnpack4 s
  | .unpack3 => execUnpack3 s
  | .unpack2 => execUnpack2 s
  | .unpack1 => execUnpack1 s
  | .unpack0 => execUnpack0 s
  | .noDispatch m g => execNoDispatch m g s
  | .emitE1 => execEmitE1 s
  | .emitE2 => execEmitE2 s
  | .emitE3 => execEmitE3 s
  | .emitD v => execEmitD v s
  | .escd1 => execEscd1 s
  | .escd2 => execEscd2 s
  | .escd3 => execEscd3 s
  | .escdBad d => execEscdBad d s
  | .clsTag c => execClsTag c s
  | .clsDirect c => execClsDirect c s
  | .clsInvalid c => execClsInvalid c s

/-- The group dispatcher (R54). `eoi` is `POS = IN_LEN` as the micro-step began (log 10). -/
def dispatch (eoi : Bool) (s : State) : Result :=
  match decodeGsel (gsel s eoi) with
  | .ok i => runSelected i s
  | .error (.neverOccurs g) => .fault (.selectorNeverOccurs g)

/-- What the character `c` selects: the escape-digit resolver while `ESC_PEND = 1`, else the classifier
(R56, R100). -/
def selectChar (c : CharCode) (s : State) : Instr :=
  if s.escPend then decodeEscDigit c else decodeClassify s.tag s.decLut c

/-- The character micro-step (R100). After a raise nothing is dispatched (R102). -/
def charStep (s : State) : Result :=
  seq (runSelected (selectChar (coreReadIn s s.pos) s) { s with pos := s.pos + 1 }) fun t =>
    if t.busy then dispatch false t else .next t

/-- The end micro-step: a pending escape is tested before the group (R101). -/
def endStep (s : State) : Result :=
  if s.escPend then .next (raiseError .invalidEscape s) else dispatch true s

/-- One micro-step of the running operation (R75, R90). -/
def microStep (s : State) : Result :=
  match s.mode with
  | .enc => if s.pos < s.inLen then dispatch false (loadOctet s) else dispatch true s
  | .dec => if s.pos < s.inLen then charStep s else endStep s

/-- At most `n` micro-steps, stopping when the operation has ended. -/
def runCore : Nat → State → Result
  | 0, s => .next s
  | n + 1, s => if s.busy then seq (microStep s) (runCore n) else .next s

end Sys2Proof.Machine
end

