-- ==== Sys2Proof/Machine/Command.lean ====
section
/-! DEFINITION. The meanings of `ENC` and `DEC`: acceptance (R80, R99), then the micro-steps to completion
(R75, R90; the operation level of R5). -/

namespace Sys2Proof.Machine

/-- Acceptance of `ENC` (R80). `EB`, `DS` and `ESC_PEND` keep what they held; V5 allows any value above `GCNT`
(log 23). -/
def acceptEnc (s : State) : State :=
  { s with
    busy := true, mode := .enc, err := .ok, outLen := 0
    pos := 0, wpos := 0, gcnt := 0#3 }

/-- Acceptance of `DEC` (R99). `EB` and `DS` keep what they held; V5 allows any value above `GCNT` (log 23). -/
def acceptDec (s : State) : State :=
  { s with
    busy := true, mode := .dec, err := .ok, outLen := 0
    pos := 0, wpos := 0, gcnt := 0#3, escPend := false }

/-- `ENC` presented: accepted, or refused with `NOT_CONFIGURED` (R75, R115). -/
def startEnc (s : State) : Result :=
  whenIdle s (if s.cfgOk then .next (acceptEnc s) else .next (raiseError .notConfigured s))

/-- `DEC` presented: accepted, or refused with `NOT_CONFIGURED` (R90, R115). -/
def startDec (s : State) : Result :=
  whenIdle s (if s.cfgOk then .next (acceptDec s) else .next (raiseError .notConfigured s))

/-- `ENC` (R75): `IN_LEN + 1` micro-steps complete it (R137). -/
def execEnc (s : State) : Result :=
  whenIdle s
    (if s.cfgOk then runCore (s.inLen + 1) (acceptEnc s) else .next (raiseError .notConfigured s))

/-- `DEC` (R90): at most `IN_LEN + 1` micro-steps complete it (R137). -/
def execDec (s : State) : Result :=
  whenIdle s
    (if s.cfgOk then runCore (s.inLen + 1) (acceptDec s) else .next (raiseError .notConfigured s))

end Sys2Proof.Machine
end

