-- ==== Sys2Proof/Machine/Dispatch.lean ====
section
/-! DEFINITION. One arm per constructor of `Instr`. -/

namespace Sys2Proof.Machine

def exec (i : Instr) (s : State) : Host.Outcome State Fault Refusal :=
  match i with
  | .cfg tlen tchar => Sys2Proof.Machine.execCfg tlen tchar s
  | .enc => Sys2Proof.Machine.execEnc s
  | .dec => Sys2Proof.Machine.execDec s
  | .cfgDefault => Sys2Proof.Machine.execCfgDefault s
  | .illegalOp low => Sys2Proof.Machine.execIllegalOp low s
  | .illegalOperand m low => Sys2Proof.Machine.execIllegalOperand m low s
  | .pack3 => Sys2Proof.Machine.execPack3 s
  | .pack2 => Sys2Proof.Machine.execPack2 s
  | .pack1 => Sys2Proof.Machine.execPack1 s
  | .pack0 => Sys2Proof.Machine.execPack0 s
  | .unpack4 => Sys2Proof.Machine.execUnpack4 s
  | .unpack3 => Sys2Proof.Machine.execUnpack3 s
  | .unpack2 => Sys2Proof.Machine.execUnpack2 s
  | .unpack1 => Sys2Proof.Machine.execUnpack1 s
  | .unpack0 => Sys2Proof.Machine.execUnpack0 s
  | .noDispatch m g => Sys2Proof.Machine.execNoDispatch m g s
  | .emitE1 => Sys2Proof.Machine.execEmitE1 s
  | .emitE2 => Sys2Proof.Machine.execEmitE2 s
  | .emitE3 => Sys2Proof.Machine.execEmitE3 s
  | .emitD v => Sys2Proof.Machine.execEmitD v s
  | .escd1 => Sys2Proof.Machine.execEscd1 s
  | .escd2 => Sys2Proof.Machine.execEscd2 s
  | .escd3 => Sys2Proof.Machine.execEscd3 s
  | .escdBad d => Sys2Proof.Machine.execEscdBad d s
  | .clsTag c => Sys2Proof.Machine.execClsTag c s
  | .clsDirect c => Sys2Proof.Machine.execClsDirect c s
  | .clsInvalid c => Sys2Proof.Machine.execClsInvalid c s

end Sys2Proof.Machine
end

