-- ==== Sys2Proof/Machine/Flags.lean ====
section
/-! DEFINITION. The status flags: the codes of `ERR` and the word `STATUS`. -/

namespace Sys2Proof.Machine

/-- The 3-bit code of an outcome (`10_state.md` R16, `60_exceptions.md` R110). -/
def ErrCode.bits : ErrCode → BitVec 3
  | .ok => 0#3
  | .invalidConfiguration => 1#3
  | .unrecognizedCharacter => 2#3
  | .invalidEscape => 3#3
  | .danglingSymbol => 4#3
  | .notConfigured => 5#3
  | .illegalCommand => 6#3

/-- The document's `MalformedInput`: codes 2, 3 and 4 (R110). -/
def ErrCode.malformed : ErrCode → Bool
  | .ok => false
  | .invalidConfiguration => false
  | .unrecognizedCharacter => true
  | .invalidEscape => true
  | .danglingSymbol => true
  | .notConfigured => false
  | .illegalCommand => false

/-- A flag as a bit. -/
def flagBit (b : Bool) : BitVec 1 := if b then 1#1 else 0#1

/-- `STATUS`: `CFG_OK` in bit 4, `BUSY` in bit 3, `ERR` in bits 2 to 0 (R27). -/
def statusWord (s : State) : BitVec 5 :=
  flagBit s.cfgOk ++ flagBit s.busy ++ s.err.bits

end Sys2Proof.Machine
end

