-- ==== Sys2Proof/Machine/HostPort.lean ====
section
/-! DEFINITION. The host's side: presenting commands, accesses to the three spaces and the registers, and
reset (`20_memory.md` R30, R31, R33, R36; `70_reset_and_hazards.md` R130, R133, R134). -/

namespace Sys2Proof.Machine

/-- The item of the `LUT` space at offset `off` from `LUT_BASE` (R31). -/
def lutItem (s : State) (off : Nat) : Option (BitVec 8) :=
  if off = 0 then some s.tag
  else if off ≤ 256 then s.decLut[off - 1]?
  else s.encLut[off - 257]?

/-- The host's read of the `LUT` space at address `a`: only when `CFG_OK = 1` and `BUSY = 0` (R30, R31). -/
def hostReadLut (s : State) (a : Nat) : Option (BitVec 8) :=
  if s.busy then none
  else if s.cfgOk then (if s.params.lutBase ≤ a then lutItem s (a - s.params.lutBase) else none)
  else none

/-- The host's read of `IN`: only below `IN_LEN` (R30); an item that holds no value answers nothing
(C7, log 6). -/
def hostReadIn (s : State) (i : Nat) : Option (BitVec 8) :=
  if s.busy then none
  else if i < s.inLen then s.inBuf.read i
  else none

/-- The host's read of `OUT`: only below `OUT_LEN` (R30, R33). -/
def hostReadOut (s : State) (i : Nat) : Option (BitVec 8) :=
  if s.busy then none
  else if i < s.outLen then s.outBuf.read i
  else none

/-- The answer to a read of an item: the value, or a refusal. -/
def replyItem : Option (BitVec 8) → Reply
  | some v => .item v
  | none => .refused

/-- The answer to a read of a length register, refused while `BUSY = 1` (R134). -/
def replyCount (s : State) (n : Nat) : Reply := if s.busy then .refused else .count n

/-- The host's write of an item of `IN`: at any index of the space while `BUSY = 0` (R30), else dropped
(R36, R134). -/
def hostWriteIn (i : Nat) (v : BitVec 8) (s : State) : State :=
  if !s.busy && inHolds s.params i then { s with inBuf := s.inBuf.write i v } else s

/-- The host's write of `IN_LEN` while `BUSY = 0` (R18), dropped while `BUSY = 1` (R134) and for a number
the register cannot hold (R42; log 15). -/
def hostWriteInLen (n : Nat) (s : State) : State :=
  if !s.busy && inLenHolds s.params n then { s with inLen := n } else s

/-- The reset event (R130): every piece of state at its reset value, whatever was running. The parameters,
the host's own list of actions and the count of draws are not the block's state (log 20). -/
def resetBlock (s : State) : State :=
  { State.resetWith s.params with host := s.host, draws := s.draws }

/-- A command presented and not waited for: `ENC` and `DEC` are accepted and go on by micro-steps; every
other command completes in one step (R137). -/
def issueCmd (w : BitVec 12) (s : State) : Result :=
  if decodeCmd w = .enc then startEnc s
  else if decodeCmd w = .dec then startDec s
  else exec (decodeCmd w) s

/-- The core's move: a micro-step of the running operation; an idle core waits (R10, R130). -/
def coreMove (s : State) : Result := if s.busy then microStep s else .next s

/-- One action of the host. A read changes nothing but the answer (R37). A write to what only the core
writes is refused (V11). -/
def hostMove (a : HostAct) (s : State) : Result :=
  match a with
  | .call w => exec (decodeCmd w) s
  | .issue w => issueCmd w s
  | .wait => coreMove s
  | .writeIn i v => .next { hostWriteIn i v s with reply := .silent }
  | .writeInLen n => .next { hostWriteInLen n s with reply := .silent }
  | .readIn i => .next { s with reply := replyItem (hostReadIn s i) }
  | .readInLen => .next { s with reply := replyCount s s.inLen }
  | .readOut i => .next { s with reply := replyItem (hostReadOut s i) }
  | .readOutLen => .next { s with reply := replyCount s s.outLen }
  | .readLut a => .next { s with reply := replyItem (hostReadLut s a) }
  | .readStatus => .next { s with reply := .status (statusWord s) }
  | .writeOut _ _ => .next { s with reply := .silent }
  | .writeOutLen _ => .next { s with reply := .silent }
  | .writeLut _ _ => .next { s with reply := .silent }
  | .writeStatus _ => .next { s with reply := .silent }
  | .reset => .next (resetBlock s)

/-- The next move: the host's first action not yet made, or else the core's. -/
def nextMove (s : State) : Result :=
  match s.host with
  | [] => coreMove s
  | a :: rest => hostMove a { s with host := rest }

end Sys2Proof.Machine
end

