-- ==== Sys2Proof/Machine/Step.lean ====
section
/-! DEFINITION. The machine's step. -/

namespace Sys2Proof.Machine

/-- One step: the host's next action, or the core's next micro-step. -/
def step (s : State) : Host.Outcome State Fault Refusal := nextMove s

/-- The state in which the very next step runs the table word `w` of `nbits` bits (log 3, log 12). -/
def State.withFetchWord (s : State) (nbits w : Nat) : State := placeWord s nbits w

end Sys2Proof.Machine
end

