-- ==== Sys2Proof/Machine/Asm.lean ====
section
/-! DEFINITION. The assembler syntax of `30_encoding.md` R58 and R59, as the host actions its lines stand
for. The hardware has no part in it. -/

namespace Sys2Proof.Machine

/-- One line of a program. A string is the list of its character codes. -/
inductive AsmLine where
  /-- `cfg '<string>'` -/
  | cfg (str : List CharCode)
  /-- `cfg` with no operand -/
  | cfgDefault
  /-- `enc` -/
  | enc
  /-- `dec` -/
  | dec
  /-- `IN := [...]` or `IN := "..."` -/
  | setIn (items : List (BitVec 8))
  deriving DecidableEq, Repr

/-- The instruction of `cfg '<string>'`: `TLEN = min(len, 3)`, `TCHAR` the first character, 0x00 if there is
none (R58). -/
def cfgOfString (str : List CharCode) : Instr :=
  .cfg (BitVec.ofNat 2 (min str.length 3)) (str.headD 0#8)

/-- The host's presentation of an encoded command. -/
def presentCode : Code → List HostAct
  | .cmd w => [.call w]
  | .gsel _ => []
  | .sextet _ => []
  | .escDigit _ => []
  | .classify _ => []

/-- The buffer writes of `IN := items`, index by index from `i`. -/
def writesFrom : Nat → List (BitVec 8) → List HostAct
  | _, [] => []
  | i, v :: rest => .writeIn i v :: writesFrom (i + 1) rest

/-- The host actions of a line: a command is presented; `IN := ...` writes the items and sets `IN_LEN`
(R58). -/
def AsmLine.acts : AsmLine → List HostAct
  | .cfg str => presentCode (encode (cfgOfString str))
  | .cfgDefault => presentCode (encode .cfgDefault)
  | .enc => presentCode (encode .enc)
  | .dec => presentCode (encode .dec)
  | .setIn items => writesFrom 0 items ++ [.writeInLen items.length]

/-- The host actions of a program. -/
def assemble (lines : List AsmLine) : List HostAct := lines.flatMap AsmLine.acts

end Sys2Proof.Machine
end

