-- ==== Sys2Proof/Machine/Codec.lean ====
section
/-! DEFINITION. The functions the commands compute, apart from the datapath: the two 64-entry tables as
views (`10_state.md` R15), `Encode` (R83), `Decode` (R103) and the length functions (R41, R85, R86, R107). -/

namespace Sys2Proof.Machine

/-- A symbol of encoded text (R6, R45). -/
inductive Symbol where
  /-- one character -/
  | direct (c : CharCode)
  /-- the tag and a digit -/
  | escaped (t d : CharCode)
  deriving DecidableEq, Repr

/-- The characters of a symbol, in text order (R34, R83). -/
def Symbol.chars : Symbol → List CharCode
  | .direct c => [c]
  | .escaped t d => [t, d]

/-- The encode table as a view of `TAG` and `ENC_LUT` (R15). -/
def encTable (tag : CharCode) (enc : EncLut) (v : Sextet) : Symbol :=
  if h : v.toNat < 61 then .direct enc[v.toNat]
  else .escaped tag (BitVec.ofNat 8 (0x30 + (v.toNat - 60)))

/-- The decode table as a view of `TAG` and `DEC_LUT` (R15): `none` where a symbol has no entry. -/
def decTable (tag : CharCode) (dec : DecLut) : Symbol → Option Sextet
  | .direct c =>
    if dec[c.toNat]'c.isLt ≠ noneMark then some ((dec[c.toNat]'c.isLt).setWidth 6) else none
  | .escaped t d =>
    if t = tag then
      if d = 0x31#8 then some 61#6 else if d = 0x32#8 then some 62#6
      else if d = 0x33#8 then some 63#6 else none
    else none

/-- `Sextets(b)` (R83). -/
def sextets : List Octet → List Sextet
  | [] => []
  | [a] => pack1 a
  | [a, b] => pack2 a b
  | a :: b :: c :: rest => pack3 a b c ++ sextets rest

/-- The characters of the symbols of `vs`, in order (R83). -/
def textOf (tag : CharCode) (enc : EncLut) (vs : List Sextet) : List CharCode :=
  vs.flatMap fun v => (encTable tag enc v).chars

/-- `Encode(b)` under the tables `tag`, `enc` (R83). -/
def encodeText (tag : CharCode) (enc : EncLut) (b : List Octet) : List CharCode :=
  textOf tag enc (sextets b)

/-- `Symbols(t)`: stage 1 of `Decode` (R103). -/
def symbols (tag : CharCode) (dec : DecLut) : List CharCode → Except ErrCode (List Sextet)
  | [] => .ok []
  | c :: rest =>
    if c = tag then
      match rest with
      | [] => .error .invalidEscape
      | d :: rest' =>
        if d = 0x31#8 ∨ d = 0x32#8 ∨ d = 0x33#8 then
          (symbols tag dec rest').map fun vs => BitVec.ofNat 6 (61 + (d.toNat - 0x31)) :: vs
        else .error .invalidEscape
    else if dec[c.toNat]'c.isLt ≠ noneMark then
      (symbols tag dec rest).map fun vs => (dec[c.toNat]'c.isLt).setWidth 6 :: vs
    else .error .unrecognizedCharacter

/-- Stage 2 of `Decode`: the group-size policy (R103). -/
def octetsOf : List Sextet → Except ErrCode (List Octet)
  | [] => .ok []
  | [_] => .error .danglingSymbol
  | [b0, b1] => .ok (unpack2 b0 b1)
  | [b0, b1, b2] => .ok (unpack3 b0 b1 b2)
  | b0 :: b1 :: b2 :: b3 :: rest => (octetsOf rest).map fun os => unpack4 b0 b1 b2 b3 ++ os

/-- `Decode(t)` under the tables `tag`, `dec` (R103). -/
def decodeText (tag : CharCode) (dec : DecLut) (t : List CharCode) : Except ErrCode (List Octet) :=
  match symbols tag dec t with
  | .ok vs => octetsOf vs
  | .error e => .error e

/-- `Encode` for a valid tag: its tables are those of a successful `CFG` (R60). -/
def encodeFor (t : CharCode) (b : List Octet) : List CharCode :=
  encodeText t (buildEnc (alphaIndex t)) b

/-- `Decode` for a valid tag: its tables are those of a successful `CFG` (R60). -/
def decodeFor (t : CharCode) (text : List CharCode) : Except ErrCode (List Octet) :=
  decodeText t (buildDec (buildEnc (alphaIndex t))) text

/-- `NSym(n)` (R85), also `EncMinLen(n)` (R86). -/
def nSym (n : Nat) : Nat :=
  4 * (n / 3) + (if n % 3 = 0 then 0 else if n % 3 = 1 then 2 else 3)

/-- `EncMaxLen(n)` (R86). -/
def encMaxLen (n : Nat) : Nat :=
  8 * (n / 3) + (if n % 3 = 0 then 0 else if n % 3 = 1 then 3 else 5)

/-- `DecMaxLen(n)` (R107). -/
def decMaxLen (n : Nat) : Nat :=
  3 * (n / 4) + (if n % 4 = 2 then 1 else if n % 4 = 3 then 2 else 0)

/-- Does the last group hold excess bits (R105): a 3-symbol tail whose last symbol is 16 or more, or a
2-symbol tail whose last symbol is 4 or more? -/
def excessTail (vs : List Sextet) : Bool :=
  (vs.length % 4 = 3 && 16 ≤ (vs.getLastD 0#6).toNat)
    || (vs.length % 4 = 2 && 4 ≤ (vs.getLastD 0#6).toNat)

/-- The constraint on the capacities (`20_memory.md` R42): `MAX_OUT >= EncMaxLen(MAX_IN)`. -/
def capacityLawful (p : Params) : Bool :=
  match p.maxIn, p.maxOut with
  | _, none => true
  | none, some _ => false
  | some n, some m => encMaxLen n ≤ m

end Sys2Proof.Machine
end

