-- ==== Sys2Proof/Safety.lean ====
section
/-! DEFINITION. What counts as a good state and a safe run, in the terms the statements use: the quiescent
view of `70_reset_and_hazards.md` R139 and the invariant of the machine. -/

namespace Sys2Proof.Machine

/-- What a finished run is held to: what the host can read when quiescent (R139). -/
structure View where
  status : BitVec 5
  inLen : Nat
  inItems : List (Option (BitVec 8))
  outLen : Nat
  outItems : List (Option (BitVec 8))
  /-- the 318 items of the `LUT` space, when `CFG_OK = 1` -/
  lut : Option (List (Option (BitVec 8)))
  deriving DecidableEq, Repr

/-- The view of a quiescent state (R139). -/
def view (s : State) : View where
  status := statusWord s
  inLen := s.inLen
  inItems := (List.range s.inLen).map (hostReadIn s)
  outLen := s.outLen
  outItems := (List.range s.outLen).map (hostReadOut s)
  lut :=
    if s.cfgOk then some ((List.range 318).map fun off => hostReadLut s (s.params.lutBase + off))
    else none

/-- The configuration state is a table set built from one valid tag, when `CFG_OK = 1` (R11 to R14). -/
def TablesOk (s : State) : Prop :=
  s.cfgOk = true →
    isAlnum s.tag = true ∧ s.encLut = buildEnc (alphaIndex s.tag) ∧ s.decLut = buildDec s.encLut

/-- The parameters obey R42, and `IN_LEN` is within its range (R18). -/
def CapacityOk (s : State) : Prop :=
  capacityLawful s.params = true ∧ inLenHolds s.params s.inLen = true

/-- A running encode (R20 to R24): full groups have been emitted, the open one holds `GCNT` octets. -/
def EncRunOk (s : State) : Prop :=
  s.gcnt.toNat = s.pos % 3 ∧ s.wpos ≤ 8 * (s.pos / 3)

/-- A running decode (R20 to R25): every logical symbol took at least one character, and a pending tag took
one more. -/
def DecRunOk (s : State) : Prop :=
  s.gcnt.toNat < 4 ∧ s.wpos % 3 = 0 ∧
    4 * (s.wpos / 3) + s.gcnt.toNat + (if s.escPend then 1 else 0) ≤ s.pos

/-- An operation is running (R17, R80, R99, R134): `ERR` reads `OK`, `OUT_LEN` is 0, `CFG_OK` is 1. -/
def RunOk (s : State) : Prop :=
  s.busy = true →
    s.cfgOk = true ∧ s.err = .ok ∧ s.outLen = 0 ∧ s.pos ≤ s.inLen ∧
      (∀ i, i < s.wpos → (s.outBuf.read i).isSome = true) ∧
      (match s.mode with | .enc => EncRunOk s | .dec => DecRunOk s)

/-- Every item below `OUT_LEN` can be read by the host (R33). -/
def OutOk (s : State) : Prop := ∀ i, i < s.outLen → (s.outBuf.read i).isSome = true

/-- The invariant of the machine. -/
structure Inv (s : State) : Prop where
  inCanonical : s.inBuf.wf
  outCanonical : s.outBuf.wf
  capacity : CapacityOk s
  tables : TablesOk s
  run : RunOk s
  out : OutOk s

/-- Two quiescent states that agree on everything a host can come to see of them (R139): not on the buffer
items at or above the length registers, not on the per-call registers, and on the configuration registers
only when `CFG_OK = 1`. An item of `IN` below `IN_LEN` may be unwritten in both: the core then reads one free value
in both (log 6, unsafe). -/
structure SameVisible (s t : State) : Prop where
  idle : s.busy = false ∧ t.busy = false
  params : s.params = t.params
  cfgOk : s.cfgOk = t.cfgOk
  tables : s.cfgOk = true → s.tag = t.tag ∧ s.encLut = t.encLut ∧ s.decLut = t.decLut
  err : s.err = t.err
  inLen : s.inLen = t.inLen
  input : ∀ i, i < s.inLen → s.inBuf.read i = t.inBuf.read i
  outLen : s.outLen = t.outLen
  output : ∀ i, i < s.outLen → s.outBuf.read i = t.outBuf.read i

/-- `t` is `s` after an operation that produced `out`: `ERR`, `BUSY` and `OUT_LEN` are written, `OUT` holds
`out` from index 0, the per-call registers may differ (V4), and nothing else does. That `OUT` at or above its new
`OUT_LEN` is as before is the model's clause (log 17): V2 and R139 leave those items open. -/
def FinishedWith (out : List (BitVec 8)) (s t : State) : Prop :=
  t = { s with
        err := .ok, busy := false, outLen := out.length, outBuf := t.outBuf
        pos := t.pos, wpos := t.wpos, eb := t.eb, ds := t.ds
        gcnt := t.gcnt, escPend := t.escPend, mode := t.mode } ∧
    ∀ i, t.outBuf.read i = if i < out.length then out[i]? else s.outBuf.read i

/-- `t` is `s` after a decode that failed with `e`: the row `MALFORMED_*` of R118. `OUT` and the per-call
registers are unspecified, `OUT_LEN` is 0, and nothing else differs (`draws` is the model's own). -/
def AbortedAs (e : ErrCode) (s t : State) : Prop :=
  t = { s with
        err := e, busy := false, outLen := 0, outBuf := t.outBuf
        pos := t.pos, wpos := t.wpos, eb := t.eb, ds := t.ds
        gcnt := t.gcnt, escPend := t.escPend, mode := t.mode, draws := t.draws }

/-- The items a command or a micro-operation writes to `OUT`, the first at `WPOS` (R79, R81, R82, R100, R101);
none for a form that leaves `OUT` alone (R72, R98, R116). Not answered (`none`) for a whole `ENC` or `DEC`,
whose items are those of `FinishedWith`, and for an abort, after which what `OUT` holds is unspecified. -/
def itemsWritten (i : Instr) (s : State) : Option (List (BitVec 8)) :=
  match i with
  | .cfg _ _ => some []
  | .enc => none
  | .dec => none
  | .cfgDefault => some []
  | .illegalOp _ => some []
  | .illegalOperand _ _ => some []
  | .pack3 => some (textOf s.tag s.encLut (pack3 s.eb[0] s.eb[1] s.eb[2]))
  | .pack2 => some (textOf s.tag s.encLut (pack2 s.eb[0] s.eb[1]))
  | .pack1 => some (textOf s.tag s.encLut (pack1 s.eb[0]))
  | .pack0 => some []
  | .unpack4 => some (unpack4 s.ds[0] s.ds[1] s.ds[2] s.ds[3])
  | .unpack3 => some (unpack3 s.ds[0] s.ds[1] s.ds[2])
  | .unpack2 => some (unpack2 s.ds[0] s.ds[1])
  | .unpack1 => none
  | .unpack0 => some []
  | .noDispatch _ _ => some []
  | .emitE1 => some [s.tag, 0x31#8]
  | .emitE2 => some [s.tag, 0x32#8]
  | .emitE3 => some [s.tag, 0x33#8]
  | .emitD v => some (encTable s.tag s.encLut v).chars
  | .escd1 => some []
  | .escd2 => some []
  | .escd3 => some []
  | .escdBad _ => none
  | .clsTag _ => some []
  | .clsDirect _ => some []
  | .clsInvalid _ => none

/-- The host's accesses that R134 forbids while `BUSY = 1`: to `IN`, `IN_LEN`, `OUT`, `OUT_LEN` and `LUT`. -/
def HostAct.isBufferAccess : HostAct → Bool
  | .call _ => false
  | .issue _ => false
  | .wait => false
  | .writeIn _ _ => true
  | .writeInLen _ => true
  | .readIn _ => true
  | .readInLen => true
  | .readOut _ => true
  | .readOutLen => true
  | .readLut _ => true
  | .readStatus => false
  | .writeOut _ _ => true
  | .writeOutLen _ => true
  | .writeLut _ _ => true
  | .writeStatus _ => false
  | .reset => false

end Sys2Proof.Machine
end

