-- ==== Sys2Proof/Certificates/Slice0/Obligations.lean ====
section
/-! DEFINITION. The statements for the provers. Rules R<n> are those of spec/; log <n> is
notes/assumptions/<n>.md. -/

open Sys2Proof Sys2Proof.Machine

/-! ### Encodings -/

/-- Decoding the word of a well-formed instruction gives the instruction back, with every operand (R52 to
R56). The pseudo-command of R59 gives its expansion. The classifier's rows are selected by their word under
the tables that select them. -/
def Obligations.WellFormedInstructionsDecodeBack : Prop :=
  ∀ (tag : CharCode) (lut : DecLut) (i : Instr),
    WellFormed i = true → i.selectedBy tag lut = true → decode tag lut (encode i) = .ok i.expand

/-- Every 12-bit command word decodes to a well-formed instruction whose word it is. -/
def Obligations.CommandWordsEncodeBack : Prop :=
  ∀ w : BitVec 12, WellFormed (decodeCmd w) = true ∧ encode (decodeCmd w) = .cmd w

/-- A few words of spec/opcode_table.json, written out bit by bit, of the four formats that have a fixed
pattern: command, `GSEL`, `SEXTET`, `ESCDIGIT`. The classifier's rows have none (R56). -/
def Obligations.SampleWordsDecode : Prop :=
  decodeCmd 0b000101111000#12 = .cfg 1#2 0x78#8 ∧ decodeCmd 0b010000000000#12 = .enc ∧
  decodeCmd 0b100000000000#12 = .dec ∧ decodeCmd 0b110000000101#12 = .illegalOp 5#10 ∧
  decodeCmd 0b010000000001#12 = .illegalOperand .enc 1#10 ∧
  decodeCmd 0b100001111000#12 = .illegalOperand .dec 0x78#10 ∧
  decodeGsel 0b00011#5 = .ok .pack3 ∧ decodeGsel 0b11001#5 = .ok .unpack1 ∧
  decodeSextet 0b111110#6 = .emitE2 ∧ decodeSextet 0b111100#6 = .emitD 60#6 ∧
  decodeEscDigit 0b00110011#8 = .escd3 ∧ decodeEscDigit 0b00110100#8 = .escdBad 0x34#8

/-- R53: the words matched by no row of R52 are those with `OP = 11` and those with `OP = 01` or `10` and a
non-zero `CMD[9:0]`; accepted while `BUSY = 0` they change no state except `ERR`. All others are the
commands of R52. -/
def Obligations.CommandWordMap : Prop :=
  ∀ (w : BitVec 12) (s : State), s.busy = false →
    if w.extractLsb' 10 2 = 3#2 ∨ (w.extractLsb' 10 2 ≠ 0#2 ∧ w.extractLsb' 0 10 ≠ 0#10) then
      exec (decodeCmd w) s = .next { s with err := .illegalCommand }
    else
      decodeCmd w =
        if w.extractLsb' 10 2 = 0#2 then .cfg (w.extractLsb' 8 2) (w.extractLsb' 0 8)
        else if w.extractLsb' 10 2 = 1#2 then .enc else .dec

/-- R54: what each selector (`MODE`, `EOI`, `GCNT`) dispatches. A full group only with `EOI = 0`, a tail only
with `EOI = 1`; the others never occur and give no instruction. -/
def Obligations.GroupSelectorTruthTable : Prop :=
  ∀ (m : Mode) (eoi : BitVec 1) (g : BitVec 3),
    decodeGsel (m.bit ++ eoi ++ g) =
      if eoi = 0#1 then
        if g.toNat < m.groupSize then .ok (.noDispatch m g)
        else if g.toNat = m.groupSize then .ok (match m with | .enc => .pack3 | .dec => .unpack4)
        else .error (.neverOccurs (m.bit ++ eoi ++ g))
      else
        match m, g.toNat with
        | .enc, 0 => .ok .pack0
        | .enc, 1 => .ok .pack1
        | .enc, 2 => .ok .pack2
        | .dec, 0 => .ok .unpack0
        | .dec, 1 => .ok .unpack1
        | .dec, 2 => .ok .unpack2
        | .dec, 3 => .ok .unpack3
        | _, _ => .error (.neverOccurs (m.bit ++ eoi ++ g))

/-- R55: the escape mux selects the two-character form exactly for 61, 62 and 63, which are the values with
`v[5:2] = 1111` and `v[1:0] != 00`. -/
def Obligations.EscapeMuxSelection : Prop :=
  ∀ v : Sextet,
    decodeSextet v =
        (if v = 61#6 then .emitE1 else if v = 62#6 then .emitE2
          else if v = 63#6 then .emitE3 else .emitD v) ∧
      ((v = 61#6 ∨ v = 62#6 ∨ v = 63#6) ↔ (v.extractLsb' 2 4 = 0b1111#4 ∧ v.extractLsb' 0 2 ≠ 0#2))

/-- R49 (a), R56, R91: under the tables of a valid tag, the first character of a symbol is the tag, a direct
symbol when it is any other alphabet character, and invalid otherwise. -/
def Obligations.ClassifierFollowsTheAlphabet : Prop :=
  ∀ t c : CharCode, isAlnum t = true →
    decodeClassify t (buildDec (buildEnc (alphaIndex t))) c =
      if c = t then .clsTag c else if isAlnum c then .clsDirect c else .clsInvalid c

/-! ### A step runs the decoded instruction -/

/-- A step at which the host presents a command word runs the instruction the word decodes to: for the word
of a well-formed instruction, that instruction (its expansion, for the pseudo-command). The step removes the
host's action from the list of those not yet made (log 2). -/
def Obligations.StepRunsThePresentedCommand : Prop :=
  ∀ (s : State) (w : BitVec 12) (rest : List HostAct), s.host = .call w :: rest →
    step s = exec (decodeCmd w) { s with host := rest } ∧
      ∀ i : Instr, WellFormed i = true → encode i = .cmd w →
        step s = exec i.expand { s with host := rest }

/-- A step of a running operation runs the micro-operations its selectors decode to: while encoding, the load
(R81) and then what the group dispatcher selects, or at the end of the input what it selects at once (R82);
while decoding, what the character selects and then, unless it raised, what the group dispatcher selects
(R100), or at the end of the input what it selects unless an escape is pending (R101). -/
def Obligations.StepRunsTheSelectedMicroOperation : Prop :=
  ∀ s : State, s.host = [] → s.busy = true →
    (∀ i, s.mode = .enc → s.pos < s.inLen → decodeGsel (gsel (loadOctet s) false) = .ok i →
      step s = exec i (loadOctet s)) ∧
    (∀ i, s.mode = .enc → s.inLen ≤ s.pos → decodeGsel (gsel s true) = .ok i → step s = exec i s) ∧
    (∀ t, s.mode = .dec → s.pos < s.inLen →
      exec (selectChar (coreReadIn s s.pos) s) { s with pos := s.pos + 1 } = .next t →
      (t.busy = false → step s = .next t) ∧
        ∀ j, t.busy = true → decodeGsel (gsel t false) = .ok j → step s = exec j t) ∧
    (∀ i, s.mode = .dec → s.inLen ≤ s.pos → s.escPend = false → decodeGsel (gsel s true) = .ok i →
      step s = exec i s)

/-! ### The table builder and the illegal words -/

/-- R116: an illegal command writes `ILLEGAL_COMMAND` to `ERR` and changes nothing else. -/
def Obligations.IllegalCommandChangesOnlyErr : Prop :=
  ∀ s : State, s.busy = false →
    (∀ low, exec (.illegalOp low) s = .next { s with err := .illegalCommand }) ∧
      ∀ m low, exec (.illegalOperand m low) s = .next { s with err := .illegalCommand }

/-- R60, R67, R72: a `CFG` with a valid tag commits the whole table set, sets `CFG_OK`, clears `ERR`, and
changes nothing else. -/
def Obligations.CfgBuildsTheTables : Prop :=
  ∀ (c : CharCode) (s : State), s.busy = false → isAlnum c = true →
    exec (.cfg 1#2 c) s =
      .next { s with
        tag := c, encLut := buildEnc (alphaIndex c), decLut := buildDec (buildEnc (alphaIndex c))
        cfgOk := true, err := .ok }

/-- R64: a `CFG` whose tag is not exactly one alphanumeric character changes only `ERR`, and the same word
fails again. -/
def Obligations.FailedCfgChangesOnlyErr : Prop :=
  ∀ (tlen : BitVec 2) (c : CharCode) (s : State), s.busy = false → ¬(tlen = 1#2 ∧ isAlnum c = true) →
    exec (.cfg tlen c) s = .next { s with err := .invalidConfiguration } ∧
      exec (.cfg tlen c) { s with err := .invalidConfiguration } =
        .next { s with err := .invalidConfiguration }

/-- R59: the pseudo-command `cfg` with no operand is `cfg 'x'`, word 0x178. -/
def Obligations.PseudoCommandIsCfgX : Prop :=
  encode .cfgDefault = .cmd 0x178#12 ∧ encode (cfgOfString [0x78#8]) = .cmd 0x178#12 ∧
    (∀ s : State, exec .cfgDefault s = exec (.cfg 1#2 0x78#8) s) ∧
    (∀ s : State, s.busy = false →
      exec .cfgDefault s =
        .next { s with
          tag := 0x78#8, encLut := buildEnc 59, decLut := buildDec (buildEnc 59)
          cfgOk := true, err := .ok }) ∧
    State.reset.cfgOk = false

/-- R71: the configuration a `CFG` leaves depends on its operands alone, and a second `CFG` with the tag in
force changes nothing but `ERR`. -/
def Obligations.CfgDependsOnItsOperandsOnly : Prop :=
  (∀ (tlen : BitVec 2) (c : CharCode) (s s' t t' : State), s.busy = false → s'.busy = false →
    tlen = 1#2 ∧ isAlnum c = true →
    exec (.cfg tlen c) s = .next t → exec (.cfg tlen c) s' = .next t' →
      t.tag = t'.tag ∧ t.encLut = t'.encLut ∧ t.decLut = t'.decLut ∧ t.cfgOk = t'.cfgOk) ∧
  ∀ s : State, s.busy = false → s.cfgOk = true → TablesOk s →
    exec (.cfg 1#2 s.tag) s = .next { s with err := .ok }

/-- R62: `AlphaIndex` of a digit, an uppercase and a lowercase letter, and that it inverts `ALPHA`. -/
def Obligations.AlphaIndexInvertsAlpha : Prop :=
  (∀ i, i < 62 → isAlnum (alpha i) = true ∧ alphaIndex (alpha i) = i) ∧
    ∀ c, isAlnum c = true →
      alphaIndex c < 62 ∧ alpha (alphaIndex c) = c ∧
      (0x30 ≤ c.toNat → c.toNat ≤ 0x39 → alphaIndex c = c.toNat - 0x30) ∧
      (0x41 ≤ c.toNat → c.toNat ≤ 0x5A → alphaIndex c = c.toNat - 0x41 + 10) ∧
      (0x61 ≤ c.toNat → c.toNat ≤ 0x7A → alphaIndex c = c.toNat - 0x61 + 36)

/-- R65: the loop of `BuildEnc` and its closed form give the same 61 characters. -/
def Obligations.ForwardTableLoopIsItsClosedForm : Prop :=
  ∀ k, k ≤ 61 →
    buildEncLoop k = (buildEnc k).toList ∧
      ∀ v, v < 61 → (buildEnc k)[v]? = some (if v < k then alpha v else alpha (v + 1))

/-- R66: the reverse table in closed form. -/
def Obligations.ReverseTableClosedForm : Prop :=
  ∀ (k : Nat) (c : CharCode), k ≤ 61 →
    (buildDec (buildEnc k))[c.toNat]? =
      some (if isAlnum c = true then
        (if alphaIndex c < k then BitVec.ofNat 8 (alphaIndex c)
          else if alphaIndex c = k then 0xFF#8 else BitVec.ofNat 8 (alphaIndex c - 1))
        else 0xFF#8)

/-- R68: after a successful `CFG` with tag `t`: (a) the 64 entries are distinct and the decode table is their
exact inverse; (b) the tag is no direct symbol; (c) the forward table is strictly increasing; (d) the
characters `1`, `2`, `3` stay direct unless one is the tag; (e) the direct characters are the alphabet
without the tag. -/
def Obligations.TableSetLaws : Prop :=
  ∀ (t : CharCode) (s : State), s.busy = false → isAlnum t = true →
    ∃ u : State, exec (.cfg 1#2 t) s = .next u ∧ u.err = .ok ∧ u.tag = t ∧
      (∀ v w, (encTable t u.encLut v).chars = (encTable t u.encLut w).chars → v = w) ∧
      (∀ v, decTable t u.decLut (encTable t u.encLut v) = some v) ∧
      (∀ y v, decTable t u.decLut y = some v → encTable t u.encLut v = y) ∧
      (∀ v : Fin 61, u.encLut[v] ≠ t) ∧
      (∀ v w : Fin 61, v < w → u.encLut[v].toNat < u.encLut[w].toNat) ∧
      (∀ d, d = 0x31#8 ∨ d = 0x32#8 ∨ d = 0x33#8 → d ≠ t → ∃ v : Fin 61, u.encLut[v] = d) ∧
      (∀ c, (∃ v : Fin 61, u.encLut[v] = c) ↔ (isAlnum c = true ∧ c ≠ t))

/-- R46: the map from value to symbol for the tag of alphabet index `k`. -/
def Obligations.EncodeTableClosedForm : Prop :=
  ∀ (k : Nat) (v : Sextet), k ≤ 61 →
    encTable (alpha k) (buildEnc k) v =
      if v.toNat < k ∧ v.toNat ≤ 60 then .direct (alpha v.toNat)
      else if v.toNat ≤ 60 then .direct (alpha (v.toNat + 1))
      else .escaped (alpha k) (BitVec.ofNat 8 (0x30 + (v.toNat - 60)))

/-- R48: the first character alone tells a symbol's length, and so no symbol is a prefix of another. -/
def Obligations.SymbolLengthFromFirstCharacter : Prop :=
  ∀ t : CharCode, isAlnum t = true →
    (∀ v, (encTable t (buildEnc (alphaIndex t)) v).chars.length =
      if (encTable t (buildEnc (alphaIndex t)) v).chars.head? = some t then 2 else 1) ∧
    ∀ u v, (encTable t (buildEnc (alphaIndex t)) u).chars <+: (encTable t (buildEnc (alphaIndex t)) v).chars →
      u = v

/-! ### The pack and unpack formulas -/

/-- R35: the first octet of a group is the most significant; the sextets are taken from the most significant
end of the 24-bit word downward, and decoding puts the first symbol into the most significant bits. -/
def Obligations.PackingIsBigEndian : Prop :=
  (∀ a b c : Octet,
    pack3 a b c =
      [(a ++ b ++ c).extractLsb' 18 6, (a ++ b ++ c).extractLsb' 12 6,
        (a ++ b ++ c).extractLsb' 6 6, (a ++ b ++ c).extractLsb' 0 6]) ∧
  ∀ b0 b1 b2 b3 : Sextet,
    unpack4 b0 b1 b2 b3 =
      [(b0 ++ b1 ++ b2 ++ b3).extractLsb' 16 8, (b0 ++ b1 ++ b2 ++ b3).extractLsb' 8 8,
        (b0 ++ b1 ++ b2 ++ b3).extractLsb' 0 8]

/-- R77, R78, R95, R96: the last sextet of a tail is unshifted on both sides. -/
def Obligations.TailsAreUnshifted : Prop :=
  (∀ a b : Octet,
    pack2 a b =
      [a.extractLsb' 2 6, a.extractLsb' 0 2 ++ b.extractLsb' 4 4, (b.extractLsb' 0 4).setWidth 6]) ∧
  (∀ a : Octet, pack1 a = [a.extractLsb' 2 6, (a.extractLsb' 0 2).setWidth 6]) ∧
  (∀ b0 b1 b2 : Sextet,
    unpack3 b0 b1 b2 = [b0 ++ b1.extractLsb' 4 2, (b1.extractLsb' 0 4 ++ 0#4) ||| b2.setWidth 8]) ∧
  ∀ b0 b1 : Sextet, unpack2 b0 b1 = [(b0 ++ 0#2) ||| b1.setWidth 8]

/-- R94 to R96: `UNPACK4` is the exact inverse of `PACK3` in both directions; the tails are left inverses. -/
def Obligations.UnpackInvertsPack : Prop :=
  (∀ a b c : Octet, ∃ s0 s1 s2 s3, pack3 a b c = [s0, s1, s2, s3] ∧ unpack4 s0 s1 s2 s3 = [a, b, c]) ∧
  (∀ b0 b1 b2 b3 : Sextet, ∃ x y z, unpack4 b0 b1 b2 b3 = [x, y, z] ∧ pack3 x y z = [b0, b1, b2, b3]) ∧
  (∀ a b : Octet, ∃ s0 s1 s2, pack2 a b = [s0, s1, s2] ∧ unpack3 s0 s1 s2 = [a, b]) ∧
  ∀ a : Octet, ∃ s0 s1, pack1 a = [s0, s1] ∧ unpack2 s0 s1 = [a]

/-! ### The micro-operations -/

/-- R79: `EMIT.E1`, `EMIT.E2`, `EMIT.E3` write the tag and their digit, `EMIT.D` the direct symbol of its
value, at `WPOS`, and advance `WPOS` by the number of characters written; for every sextet, what the mux
selects writes the encode table's symbol (where `OUT` has room, which R42 assures). That nothing else changes
takes in the entries of `EB` and `DS` at or above `GCNT` (V5; log 23) and the items of `OUT` above those written
(V2; log 17, unsafe), which the spec leaves open: the model's choices. -/
def Obligations.EmitWritesTheSymbol : Prop :=
  ∀ s : State,
    (outRoom s.params (s.wpos + 2) = true →
      exec .emitE1 s = .next (storeItems [s.tag, 0x31#8] s) ∧
      exec .emitE2 s = .next (storeItems [s.tag, 0x32#8] s) ∧
      exec .emitE3 s = .next (storeItems [s.tag, 0x33#8] s)) ∧
    (∀ (v : Sextet) (h : v.toNat < 61), outRoom s.params (s.wpos + 1) = true →
      exec (.emitD v) s = .next (storeItems [s.encLut[v.toNat]] s)) ∧
    ∀ v : Sextet, outRoom s.params (s.wpos + (encTable s.tag s.encLut v).chars.length) = true →
      exec (decodeSextet v) s = .next (storeItems (encTable s.tag s.encLut v).chars s)

/-- R76 to R78, R81, R82: a pack operation emits the symbols of its sextets in order; `PACK3` then empties the
group, the others end the operation. An absent dispatch changes nothing. Which end writes belong to the
dispatch is log 22. That nothing else changes is the model's choice where the spec leaves a value open: the
per-call registers after completion (V4; log 9, unsafe), `OUT` at or above `OUT_LEN` but for the items written
(V2, R139; log 17, unsafe), and `EB` and `DS` above `GCNT` (V5; log 23). -/
def Obligations.PackDispatchesEmitTheirSextets : Prop :=
  ∀ s : State,
    (∀ text, text = textOf s.tag s.encLut (pack3 s.eb[0] s.eb[1] s.eb[2]) →
      outRoom s.params (s.wpos + text.length) = true →
      exec .pack3 s = .next { storeItems text s with gcnt := 0#3 }) ∧
    (∀ text, text = textOf s.tag s.encLut (pack2 s.eb[0] s.eb[1]) →
      outRoom s.params (s.wpos + text.length) = true →
      exec .pack2 s =
        .next { storeItems text s with gcnt := 0#3, outLen := s.wpos + text.length, busy := false }) ∧
    (∀ text, text = textOf s.tag s.encLut (pack1 s.eb[0]) →
      outRoom s.params (s.wpos + text.length) = true →
      exec .pack1 s =
        .next { storeItems text s with gcnt := 0#3, outLen := s.wpos + text.length, busy := false }) ∧
    exec .pack0 s = .next { s with gcnt := 0#3, outLen := s.wpos, busy := false } ∧
    ∀ m g, exec (.noDispatch m g) s = .next s

/-- R94 to R96, R98, R100, R101: an unpack operation writes its octets in order; `UNPACK4` then empties the
group, the others end the operation. Which end writes belong to the dispatch is log 22. That nothing else
changes is the model's choice where the spec leaves a value open: the per-call registers after completion
(V4; log 9, unsafe), `OUT` at or above `OUT_LEN` but for the items written (V2, R139; log 17, unsafe), and `EB`
and `DS` above `GCNT` (V5; log 23). -/
def Obligations.UnpackDispatchesWriteTheirOctets : Prop :=
  ∀ s : State,
    (outRoom s.params (s.wpos + 3) = true →
      exec .unpack4 s =
        .next { storeItems (unpack4 s.ds[0] s.ds[1] s.ds[2] s.ds[3]) s with gcnt := 0#3 }) ∧
    (outRoom s.params (s.wpos + 2) = true →
      exec .unpack3 s =
        .next { storeItems (unpack3 s.ds[0] s.ds[1] s.ds[2]) s with
          gcnt := 0#3, outLen := s.wpos + 2, busy := false }) ∧
    (outRoom s.params (s.wpos + 1) = true →
      exec .unpack2 s =
        .next { storeItems (unpack2 s.ds[0] s.ds[1]) s with
          gcnt := 0#3, outLen := s.wpos + 1, busy := false }) ∧
    exec .unpack0 s = .next { s with gcnt := 0#3, outLen := s.wpos, busy := false }

/-- R91, R92, R100: the tag sets `ESC_PEND`; a direct symbol puts `DEC_LUT[c]` into `DS[GCNT]`; an escape digit
puts 61, 62 or 63 there and clears `ESC_PEND`. Nothing else changes; that this takes in the entries of `EB` and
`DS` at or above `GCNT` (V5; log 23) and `OUT` at or above `WPOS` (V2; log 17, unsafe), which the spec leaves
open, is the model's choice. -/
def Obligations.CharacterSelectionsAct : Prop :=
  ∀ (s : State) (c : CharCode) (h : s.gcnt.toNat < 4),
    exec (.clsTag c) s = .next { s with escPend := true } ∧
    (s.decLut[c.toNat]'c.isLt ≠ 0xFF#8 →
      exec (.clsDirect c) s =
        .next { s with
          ds := s.ds.set s.gcnt.toNat ((s.decLut[c.toNat]'c.isLt).setWidth 6) h, gcnt := s.gcnt + 1#3 }) ∧
    exec .escd1 s =
      .next { s with ds := s.ds.set s.gcnt.toNat 61#6 h, gcnt := s.gcnt + 1#3, escPend := false } ∧
    exec .escd2 s =
      .next { s with ds := s.ds.set s.gcnt.toNat 62#6 h, gcnt := s.gcnt + 1#3, escPend := false } ∧
    exec .escd3 s =
      .next { s with ds := s.ds.set s.gcnt.toNat 63#6 h, gcnt := s.gcnt + 1#3, escPend := false }

/-- R97, R112 to R114, R118: an unrecognized character, an invalid escape and a dangling symbol abort the
decode: `ERR` is the cause's code, `OUT_LEN` and `BUSY` are 0, no octet is readable, and the configuration,
`IN` and `IN_LEN` are unchanged. -/
def Obligations.DecodeErrorsAbort : Prop :=
  ∀ (s : State) (c : CharCode),
    (∃ t, exec (.clsInvalid c) s = .next t ∧ AbortedAs .unrecognizedCharacter s t ∧
      ∀ i, hostReadOut t i = none) ∧
    (∃ t, exec (.escdBad c) s = .next t ∧ AbortedAs .invalidEscape s t ∧ ∀ i, hostReadOut t i = none) ∧
    ∃ t, exec .unpack1 s = .next t ∧ AbortedAs .danglingSymbol s t ∧ ∀ i, hostReadOut t i = none

/-- R8, R34, R79, R81, R82, R100, R101: the bytes of `OUT`. A form that writes items writes them at the
consecutive indices from `WPOS`, the first at the lowest, and every other index reads as before; a form that
writes none leaves every index as before (`itemsWritten` names the forms and their items). For an index at or
above `OUT_LEN`, whose value V2 and R139 leave open, "as before" is the model's clause (log 17, unsafe). -/
def Obligations.StoringFormsChangeOnlyTheirItems : Prop :=
  ∀ (i : Instr) (s t : State) (items : List (BitVec 8)),
    itemsWritten i s = some items → exec i s = .next t → ∀ a : Nat,
      t.outBuf.read a =
        if s.wpos ≤ a ∧ a < s.wpos + items.length then items[a - s.wpos]? else s.outBuf.read a

/-! ### The micro-steps -/

/-- R80, R99: acceptance of `ENC` and of `DEC`. The previous contents of `OUT` stop being readable. That `EB` and
`DS` stay as they were, all of whose entries V5 leaves open while `GCNT = 0` (log 23), and `OUT`, which V2 leaves
open while `OUT_LEN = 0` (log 17, unsafe), is the model's choice. -/
def Obligations.AcceptanceOfEncAndDec : Prop :=
  ∀ (s : State) (rest : List HostAct), s.busy = false → s.cfgOk = true →
    (s.host = .issue 0x400#12 :: rest →
      step s = .next { s with
        busy := true, mode := .enc, err := .ok, outLen := 0, pos := 0, wpos := 0, gcnt := 0#3
        host := rest }) ∧
    (s.host = .issue 0x800#12 :: rest →
      step s = .next { s with
        busy := true, mode := .dec, err := .ok, outLen := 0, pos := 0, wpos := 0, gcnt := 0#3
        escPend := false, host := rest }) ∧
    ∀ t, step s = .next t → (s.host = .issue 0x400#12 :: rest ∨ s.host = .issue 0x800#12 :: rest) →
      ∀ i, hostReadOut { t with busy := false } i = none

/-- R81: the encode load micro-step. It consumes one octet; the third octet of a group also emits the four
symbols of the group and empties it. That the other entries of `EB` and `DS` stay, also those at or above
`GCNT` (V5; log 23), and the items of `OUT` above those written (V2; log 17, unsafe), which the spec leaves open,
is the model's choice. -/
def Obligations.EncodeLoadMicroStep : Prop :=
  ∀ s : State, s.host = [] → s.busy = true → s.mode = .enc → s.pos < s.inLen →
    (∀ h : s.gcnt.toNat < 2,
      step s = .next { s with
        eb := s.eb.set s.gcnt.toNat (coreReadIn s s.pos) (by omega), pos := s.pos + 1
        gcnt := s.gcnt + 1#3 }) ∧
    (∀ text, s.gcnt = 2#3 → text = textOf s.tag s.encLut (pack3 s.eb[0] s.eb[1] (coreReadIn s s.pos)) →
      outRoom s.params (s.wpos + text.length) = true →
      step s = .next { storeItems text s with
        eb := s.eb.set 2 (coreReadIn s s.pos), pos := s.pos + 1, gcnt := 0#3 })

/-- R82: the encode flush micro-step. It emits the tail's symbols, if there is a tail, and the operation is
complete; `ERR` stays as it is. With `BUSY = 0`, that the per-call registers keep what they held, where V4 leaves
them open (log 9, unsafe), and that `OUT` at or above the new `OUT_LEN` is as before, where V2 and R139 leave it
open (log 17, unsafe), are the model's choices. -/
def Obligations.EncodeFlushMicroStep : Prop :=
  ∀ (s : State) (text : List CharCode), s.host = [] → s.busy = true → s.mode = .enc → s.pos = s.inLen →
    (s.gcnt = 2#3 ∧ text = textOf s.tag s.encLut (pack2 s.eb[0] s.eb[1]) ∨
      s.gcnt = 1#3 ∧ text = textOf s.tag s.encLut (pack1 s.eb[0]) ∨ s.gcnt = 0#3 ∧ text = []) →
    outRoom s.params (s.wpos + text.length) = true →
    step s = .next { storeItems text s with
      gcnt := 0#3, outLen := s.wpos + text.length, busy := false }

/-- R100, R102: the decode character micro-step. A tag sets `ESC_PEND`; a symbol joins the group, and the
fourth also writes the group's three octets and empties it; an invalid character or escape aborts. That the
other entries of `EB` and `DS` stay, also those at or above `GCNT` (V5; log 23), and the items of `OUT` above those
written (V2; log 17, unsafe), which the spec leaves open, is the model's choice. -/
def Obligations.DecodeCharacterMicroStep : Prop :=
  ∀ (s : State) (c : CharCode), s.host = [] → s.busy = true → s.mode = .dec → s.pos < s.inLen →
    s.gcnt.toNat < 4 → c = coreReadIn s s.pos →
    (s.escPend = false → c = s.tag →
      step s = .next { s with pos := s.pos + 1, escPend := true }) ∧
    (∀ v : Sextet,
      (s.escPend = true ∧ (c = 0x31#8 ∧ v = 61#6 ∨ c = 0x32#8 ∧ v = 62#6 ∨ c = 0x33#8 ∧ v = 63#6) ∨
        s.escPend = false ∧ c ≠ s.tag ∧ s.decLut[c.toNat]'c.isLt ≠ 0xFF#8 ∧
          v = (s.decLut[c.toNat]'c.isLt).setWidth 6) →
      (∀ h : s.gcnt.toNat < 3,
        step s = .next { s with
          pos := s.pos + 1, ds := s.ds.set s.gcnt.toNat v (by omega), gcnt := s.gcnt + 1#3
          escPend := false }) ∧
      (s.gcnt = 3#3 → outRoom s.params (s.wpos + 3) = true →
        step s = .next { storeItems (unpack4 s.ds[0] s.ds[1] s.ds[2] v) s with
          pos := s.pos + 1, ds := s.ds.set 3 v, gcnt := 0#3, escPend := false })) ∧
    (s.escPend = true → c ≠ 0x31#8 → c ≠ 0x32#8 → c ≠ 0x33#8 →
      ∃ t, step s = .next t ∧ AbortedAs .invalidEscape s t) ∧
    (s.escPend = false → c ≠ s.tag → s.decLut[c.toNat]'c.isLt = 0xFF#8 →
      ∃ t, step s = .next t ∧ AbortedAs .unrecognizedCharacter s t)

/-- R101: the decode end micro-step. A pending escape is an invalid escape whatever `GCNT` is; one symbol
left is a dangling symbol; otherwise the tail's octets are written and the operation is complete. With
`BUSY = 0`, that the per-call registers then keep what they held, where V4 leaves them open (log 9, unsafe), and
that `OUT` at or above the new `OUT_LEN` is as before, where V2 and R139 leave it open (log 17, unsafe), are the
model's choices. -/
def Obligations.DecodeEndMicroStep : Prop :=
  ∀ (s : State), s.host = [] → s.busy = true → s.mode = .dec → s.pos = s.inLen →
    (s.escPend = true → ∃ t, step s = .next t ∧ AbortedAs .invalidEscape s t) ∧
    (s.escPend = false → s.gcnt = 1#3 → ∃ t, step s = .next t ∧ AbortedAs .danglingSymbol s t) ∧
    (∀ out : List Octet, s.escPend = false →
      (s.gcnt = 3#3 ∧ out = unpack3 s.ds[0] s.ds[1] s.ds[2] ∨
        s.gcnt = 2#3 ∧ out = unpack2 s.ds[0] s.ds[1] ∨ s.gcnt = 0#3 ∧ out = []) →
      outRoom s.params (s.wpos + out.length) = true →
      step s = .next { storeItems out s with
        gcnt := 0#3, outLen := s.wpos + out.length, busy := false })

/-! ### The commands -/

/-- R115: `ENC` and `DEC` with `CFG_OK = 0` are refused: `ERR` and `OUT_LEN` are written, nothing else. -/
def Obligations.NotConfiguredRefusal : Prop :=
  ∀ s : State, s.busy = false → s.cfgOk = false →
    exec .enc s = .next { s with err := .notConfigured, outLen := 0 } ∧
      exec .dec s = .next { s with err := .notConfigured, outLen := 0 }

/-- R133: a command word presented while `BUSY = 1` changes no state, not even `ERR`, and is not queued. -/
def Obligations.CommandsWhileBusyChangeNothing : Prop :=
  ∀ (s : State) (w : BitVec 12) (rest : List HostAct), s.busy = true →
    (s.host = .call w :: rest ∨ s.host = .issue w :: rest) → step s = .next { s with host := rest }

/-- R75, R83, R87: an accepted `ENC` always completes with `ERR = OK` and `OUT` holds
`Encode(IN[0 .. IN_LEN-1])`; `IN`, `IN_LEN` and the configuration are unchanged. `FinishedWith` also says that
`OUT` at or above `OUT_LEN`, which V2 and R139 leave open, is as before: the model's clause (log 17, unsafe). -/
def Obligations.EncComputesEncode : Prop :=
  ∀ s : State, s.busy = false → s.cfgOk = true → CapacityOk s →
    ∃ t, exec .enc s = .next t ∧ FinishedWith (encodeText s.tag s.encLut (inputItems s)) s t

/-- R90, R103: `DEC` completes with `Decode(IN[0 .. IN_LEN-1])` in `OUT`, or aborts with the error `Decode`
reports; `IN`, `IN_LEN` and the configuration are unchanged. On success `FinishedWith` also says that `OUT` at
or above `OUT_LEN`, which V2 and R139 leave open, is as before: the model's clause (log 17, unsafe). -/
def Obligations.DecComputesDecode : Prop :=
  ∀ s : State, s.busy = false → s.cfgOk = true → CapacityOk s →
    (∀ out, decodeText s.tag s.decLut (inputItems s) = .ok out →
      ∃ t, exec .dec s = .next t ∧ FinishedWith out s t) ∧
    ∀ e, decodeText s.tag s.decLut (inputItems s) = .error e →
      ∃ t, exec .dec s = .next t ∧ AbortedAs e s t

/-- R5: presenting a command and letting the core take `IN_LEN + 1` micro-steps gives what the command gives
as one atomic step. Where the spec leaves a value open, that both levels have the same one is the model's choice:
an item of `IN` nothing has written (V3; log 6, unsafe), the per-call registers after a failed `DEC` (V4;
log 8, unsafe). -/
def Obligations.MicroStepsComputeTheCommand : Prop :=
  ∀ (s : State) (w : BitVec 12) (rest : List HostAct), s.busy = false →
    Host.Core.run Sys2Proof.core (s.inLen + 2)
        { s with host := .issue w :: (List.replicate (s.inLen + 1) .wait ++ rest) } =
      step { s with host := .call w :: rest }

/-- R119, R125: after a failed `DEC` nothing of a partial result can be read, and once accepted it fails with
a code of `MalformedInput` only; after a failed `CFG` no table entry has changed. -/
def Obligations.FailedCommandsShowNothing : Prop :=
  ∀ s t : State, s.busy = false →
    (exec .dec s = .next t → t.err ≠ .ok →
      t.outLen = 0 ∧ (∀ i, hostReadOut t i = none) ∧ (s.cfgOk = true → t.err.malformed = true)) ∧
    ∀ tlen c, exec (.cfg tlen c) s = .next t → t.err ≠ .ok →
      t.tag = s.tag ∧ t.encLut = s.encLut ∧ t.decLut = s.decLut ∧ t.cfgOk = s.cfgOk

/-- R12, R135: no instruction but `CFG` (and its pseudo-command) changes the configuration, and none clears
`CFG_OK`. -/
def Obligations.OnlyCfgChangesTheConfiguration : Prop :=
  ∀ (i : Instr) (s t : State), exec i s = .next t →
    (s.cfgOk = true → t.cfgOk = true) ∧
    ((∀ tlen c, i.expand ≠ .cfg tlen c) →
      t.tag = s.tag ∧ t.encLut = s.encLut ∧ t.decLut = s.decLut ∧ t.cfgOk = s.cfgOk)

/-- R32, R75, R90: no instruction changes `IN`, `IN_LEN`, the parameters, the host's pending actions or its
last answer; every item of `IN` reads as before. -/
def Obligations.InstructionsLeaveTheInputAlone : Prop :=
  ∀ (i : Instr) (s t : State), exec i s = .next t →
    t.inLen = s.inLen ∧ (∀ a, t.inBuf.read a = s.inBuf.read a) ∧ t.params = s.params ∧
      t.host = s.host ∧ t.reply = s.reply

/-- R137: every operation that is running ends within as many micro-steps as there are items left, plus
one. -/
def Obligations.EveryOperationEnds : Prop :=
  ∀ s : State, Inv s → s.host = [] →
    ∃ t : State, Host.Core.run Sys2Proof.core (s.inLen - s.pos + 1) s = .next t ∧ t.busy = false

/-- R9, R124, R139: what a command does to what the host can see depends only on what the host can see: not
on `OUT` at or above `OUT_LEN`, on `IN` at or above `IN_LEN`, on the per-call registers, or on the
configuration registers while `CFG_OK = 0`. Two states that agree on what counts give the host the same
view. An item of `IN` below `IN_LEN` may be unwritten in both states, where V3 lets the block hold different
values: that `ENC` and `DEC` agree on it is the model's choice, a free value of the index alone (log 6,
unsafe). -/
def Obligations.HiddenStateNeverShows : Prop :=
  ∀ (w : BitVec 12) (s s' t : State), SameVisible s s' → exec (decodeCmd w) s = .next t →
    ∃ t', exec (decodeCmd w) s' = .next t' ∧ SameVisible t t' ∧ view t = view t'

/-! ### The functions `Encode` and `Decode` -/

/-- R104: the round-trip law, for every octet sequence and every valid tag. -/
def Obligations.RoundTripLaw : Prop :=
  ∀ (t : CharCode) (b : List Octet), isAlnum t = true → decodeFor t (encodeFor t b) = .ok b

/-- R105: a text that passes stage 1 and does not dangle decodes, also when its tail has excess bits; it is
canonical exactly when its tail has none, and then encoding the result gives it back. -/
def Obligations.ExcessTailsDecodeThoughNotEncoded : Prop :=
  ∀ (t : CharCode) (text : List CharCode) (vs : List Sextet), isAlnum t = true →
    symbols t (buildDec (buildEnc (alphaIndex t))) text = .ok vs → vs.length % 4 ≠ 1 →
    ∃ out, decodeFor t text = .ok out ∧
      ((∃ b, encodeFor t b = text) ↔ excessTail vs = false) ∧
      (encodeFor t out = text ↔ excessTail vs = false)

/-- R108: the first defect in scan order is the one reported; a dangling symbol is reported exactly when
every character was accepted. -/
def Obligations.FirstDefectIsReported : Prop :=
  ∀ (t : CharCode) (good : List CharCode) (vs : List Sextet), isAlnum t = true →
    symbols t (buildDec (buildEnc (alphaIndex t))) good = .ok vs →
    (∀ c rest, isAlnum c = false → decodeFor t (good ++ c :: rest) = .error .unrecognizedCharacter) ∧
    (∀ d rest, d ≠ 0x31#8 → d ≠ 0x32#8 → d ≠ 0x33#8 →
      decodeFor t (good ++ t :: d :: rest) = .error .invalidEscape) ∧
    decodeFor t (good ++ [t]) = .error .invalidEscape ∧
    (decodeFor t good = .error .danglingSymbol ↔ vs.length % 4 = 1) ∧
    ∀ text, decodeFor t text = .error .danglingSymbol →
      ∃ us, symbols t (buildDec (buildEnc (alphaIndex t))) text = .ok us

/-- R41, R85, R86: the number of sextets, the output length of `Encode`, its bounds, and that both bounds are
reached. -/
def Obligations.EncodedLength : Prop :=
  ∀ (tag : CharCode) (enc : EncLut) (b : List Octet) (n : Nat),
    (sextets b).length = nSym b.length ∧
    (encodeText tag enc b).length =
      nSym b.length + (sextets b).countP (fun v => decide (61 ≤ v.toNat)) ∧
    nSym b.length ≤ (encodeText tag enc b).length ∧
    (encodeText tag enc b).length ≤ encMaxLen b.length ∧
    (encodeText tag enc (List.replicate n 0#8)).length = nSym n ∧
    (encodeText tag enc (List.replicate n 0xFF#8)).length = encMaxLen n

/-- R107: the number of logical symbols is the number of characters less the number of escapes, the output
length of `Decode` follows from it, and its bound. -/
def Obligations.DecodedLength : Prop :=
  ∀ (t : CharCode) (text out : List (BitVec 8)), isAlnum t = true → decodeFor t text = .ok out →
    ∃ vs, symbols t (buildDec (buildEnc (alphaIndex t))) text = .ok vs ∧
      vs.length + vs.countP (fun v => decide (61 ≤ v.toNat)) = text.length ∧ vs.length % 4 ≠ 1 ∧
      out.length = 3 * (vs.length / 4)
        + (if vs.length % 4 = 2 then 1 else if vs.length % 4 = 3 then 2 else 0) ∧
      out.length ≤ decMaxLen text.length

/-! ### The host's accesses and reset -/

/-- R27: the word `STATUS`, its codes (R110), and that reading it changes nothing but the answer. -/
def Obligations.StatusWordLayout : Prop :=
  (∀ s : State,
    (statusWord s).extractLsb' 4 1 = (if s.cfgOk then 1#1 else 0#1) ∧
    (statusWord s).extractLsb' 3 1 = (if s.busy then 1#1 else 0#1) ∧
    (statusWord s).extractLsb' 0 3 =
      (match s.err with
        | .ok => 0#3
        | .invalidConfiguration => 1#3
        | .unrecognizedCharacter => 2#3
        | .invalidEscape => 3#3
        | .danglingSymbol => 4#3
        | .notConfigured => 5#3
        | .illegalCommand => 6#3)) ∧
  (∀ (s : State) (rest : List HostAct), s.host = .readStatus :: rest →
    step s = .next { s with host := rest, reply := .status (statusWord s) }) ∧
  statusWord State.reset = 0b00000#5

/-- R30, R33, R37: while `BUSY = 0` the host reads `IN` below `IN_LEN`, `OUT` below `OUT_LEN` and the two
length registers; a read changes nothing but the answer, and an item out of bounds is refused. -/
def Obligations.HostReadsWithinBounds : Prop :=
  ∀ (s : State) (i : Nat) (rest : List HostAct), s.busy = false →
    (s.host = .readIn i :: rest →
      (∀ v, i < s.inLen → s.inBuf.read i = some v →
        step s = .next { s with host := rest, reply := .item v }) ∧
      (s.inLen ≤ i → step s = .next { s with host := rest, reply := .refused })) ∧
    (s.host = .readOut i :: rest →
      (∀ v, i < s.outLen → s.outBuf.read i = some v →
        step s = .next { s with host := rest, reply := .item v }) ∧
      (s.outLen ≤ i → step s = .next { s with host := rest, reply := .refused })) ∧
    (s.host = .readInLen :: rest → step s = .next { s with host := rest, reply := .count s.inLen }) ∧
    (s.host = .readOutLen :: rest → step s = .next { s with host := rest, reply := .count s.outLen })

/-- R31: the map of the `LUT` space of 318 items, that nothing is read outside it or while `CFG_OK = 0`, and
that the host cannot write it. -/
def Obligations.LutSpaceMap : Prop :=
  ∀ s : State, s.busy = false →
    (s.cfgOk = true →
      hostReadLut s s.params.lutBase = some s.tag ∧
      (∀ c : CharCode,
        hostReadLut s (s.params.lutBase + 1 + c.toNat) = some (s.decLut[c.toNat]'c.isLt)) ∧
      (∀ v : Fin 61, hostReadLut s (s.params.lutBase + 257 + v.val) = some s.encLut[v]) ∧
      (∀ a, a < s.params.lutBase ∨ s.params.lutBase + 318 ≤ a → hostReadLut s a = none)) ∧
    (s.cfgOk = false → ∀ a, hostReadLut s a = none) ∧
    (∀ (a : Nat) (rest : List HostAct), s.host = .readLut a :: rest →
      step s = .next { s with host := rest, reply := replyItem (hostReadLut s a) }) ∧
    ∀ (a : Nat) (v : BitVec 8) (rest : List HostAct), s.host = .writeLut a v :: rest →
      step s = .next { s with host := rest, reply := .silent }

/-- R30, R37, V11: while `BUSY = 0` a host write changes only the item of `IN` it names, or `IN_LEN`; writes to
`OUT`, `OUT_LEN`, `LUT` and `STATUS` have no effect. A write of a number `IN_LEN` cannot hold is dropped
(the model's choice, log 15). -/
def Obligations.HostWritesOnlyTheInput : Prop :=
  ∀ (s : State) (rest : List HostAct), s.busy = false →
    (∀ i v, s.host = .writeIn i v :: rest →
      (inHolds s.params i = true →
        ∃ t, step s = .next t ∧ t = { s with host := rest, reply := .silent, inBuf := t.inBuf } ∧
          t.inBuf.read i = some v ∧ ∀ j, j ≠ i → t.inBuf.read j = s.inBuf.read j) ∧
      (inHolds s.params i = false → step s = .next { s with host := rest, reply := .silent })) ∧
    (∀ n, s.host = .writeInLen n :: rest →
      step s = .next { s with
        host := rest, reply := .silent, inLen := if inLenHolds s.params n then n else s.inLen }) ∧
    (∀ a, (∃ i v, a = .writeOut i v ∨ a = .writeLut i v) ∨ (∃ n, a = .writeOutLen n) ∨
        (∃ w, a = .writeStatus w) → s.host = a :: rest →
      step s = .next { s with host := rest, reply := .silent })

/-- R134: while `BUSY = 1` an access to `IN`, `IN_LEN`, `OUT`, `OUT_LEN` or `LUT` has no effect and returns no
value; `STATUS` is readable, its `ERR` reads `OK` and its `CFG_OK` the stable value 1. -/
def Obligations.AccessesWhileBusyHaveNoEffect : Prop :=
  ∀ (s : State) (a : HostAct) (rest : List HostAct), Inv s → s.busy = true → s.host = a :: rest →
    (a.isBufferAccess = true →
      ∃ r, (r = .silent ∨ r = .refused) ∧ step s = .next { s with host := rest, reply := r }) ∧
    (a = .readStatus → step s = .next { s with host := rest, reply := .status 0b11000#5 })

/-- R130, R131: reset, at any time, leaves `CFG_OK = 0`, `BUSY = 0`, `ERR = OK`, `IN_LEN = 0`, `OUT_LEN = 0`;
everything else is unreadable, and the block is idle. -/
def Obligations.ResetLeavesAnIdleUnconfiguredBlock : Prop :=
  ∀ (s : State) (rest : List HostAct), s.host = .reset :: rest →
    ∃ t, step s = .next t ∧ t.cfgOk = false ∧ t.busy = false ∧ t.err = .ok ∧ t.inLen = 0 ∧ t.outLen = 0 ∧
      (∀ i, hostReadIn t i = none) ∧ (∀ i, hostReadOut t i = none) ∧ (∀ a, hostReadLut t a = none) ∧
      t.host = rest ∧ t.params = s.params ∧
      step { t with host := [] } = .next { t with host := [] }

/-- R58: the words of the assembler's lines. -/
def Obligations.AssembledCommandWords : Prop :=
  AsmLine.enc.acts = [.call 0x400#12] ∧ AsmLine.dec.acts = [.call 0x800#12] ∧
    ∀ str : List CharCode, ∃ w : BitVec 12, (AsmLine.cfg str).acts = [.call w] ∧
      w.extractLsb' 10 2 = 0#2 ∧ (w.extractLsb' 8 2).toNat = min str.length 3 ∧
      w.extractLsb' 0 8 = (match str with | [] => 0x00#8 | c :: _ => c)

/-- R58, R132: the host actions of `IN := items` leave the items in `IN` from index 0 and their number in
`IN_LEN` (shown for the default, unbounded `MAX_IN`). -/
def Obligations.AssembledInputLineFillsTheBuffer : Prop :=
  ∀ (s : State) (items : List (BitVec 8)) (rest : List HostAct), s.busy = false → s.params.maxIn = none →
    ∃ t : State,
      Host.Core.run Sys2Proof.core (items.length + 1)
        { s with host := (AsmLine.setIn items).acts ++ rest } = .next t ∧
      t = { s with inLen := items.length, inBuf := t.inBuf, host := rest, reply := .silent } ∧
      inputItems t = items ∧ ∀ i, items.length ≤ i → t.inBuf.read i = s.inBuf.read i

/-! ### The invariant -/

/-- The invariant holds after reset, for every lawful choice of the parameters (R4, R29, R42). -/
def Obligations.InvariantHoldsAtReset : Prop :=
  Inv State.reset ∧ ∀ p : Params, capacityLawful p = true → Inv (State.resetWith p)

/-- Every step keeps the invariant: the buffers stay canonical, the tables stay those of one valid tag, a
running operation keeps `ERR = OK`, `OUT_LEN = 0` and its counts, and every item below `OUT_LEN` is
readable. -/
def Obligations.StepKeepsTheInvariant : Prop :=
  ∀ s t : State, Inv s → step s = .next t → Inv t

/-- No state of the invariant stops: no selector that never occurs is formed (R54) and `OUT` never runs out of
room (R42, R87). -/
def Obligations.GoodStatesNeverStop : Prop :=
  ∀ s : State, Inv s → ∃ t, step s = .next t
end

