-- ==== Sys2Proof/Laws/State.lean ====
section
/-! SUPPORT. One lemma per field per named update of the state, each true by `rfl`. -/

namespace Sys2Proof.Machine

/-! ### `complete` -/

@[simp] theorem complete_params (s : State) : (complete s).params = s.params := rfl
@[simp] theorem complete_tag (s : State) : (complete s).tag = s.tag := rfl
@[simp] theorem complete_cfgOk (s : State) : (complete s).cfgOk = s.cfgOk := rfl
@[simp] theorem complete_encLut (s : State) : (complete s).encLut = s.encLut := rfl
@[simp] theorem complete_decLut (s : State) : (complete s).decLut = s.decLut := rfl
@[simp] theorem complete_err (s : State) : (complete s).err = s.err := rfl
@[simp] theorem complete_busy (s : State) : (complete s).busy = false := rfl
@[simp] theorem complete_inLen (s : State) : (complete s).inLen = s.inLen := rfl
@[simp] theorem complete_inBuf (s : State) : (complete s).inBuf = s.inBuf := rfl
@[simp] theorem complete_outLen (s : State) : (complete s).outLen = s.wpos := rfl
@[simp] theorem complete_outBuf (s : State) : (complete s).outBuf = s.outBuf := rfl
@[simp] theorem complete_pos (s : State) : (complete s).pos = s.pos := rfl
@[simp] theorem complete_wpos (s : State) : (complete s).wpos = s.wpos := rfl
@[simp] theorem complete_eb (s : State) : (complete s).eb = s.eb := rfl
@[simp] theorem complete_ds (s : State) : (complete s).ds = s.ds := rfl
@[simp] theorem complete_gcnt (s : State) : (complete s).gcnt = 0#3 := rfl
@[simp] theorem complete_escPend (s : State) : (complete s).escPend = s.escPend := rfl
@[simp] theorem complete_mode (s : State) : (complete s).mode = s.mode := rfl
@[simp] theorem complete_host (s : State) : (complete s).host = s.host := rfl
@[simp] theorem complete_reply (s : State) : (complete s).reply = s.reply := rfl
@[simp] theorem complete_draws (s : State) : (complete s).draws = s.draws := rfl

/-! ### `loadOctet` -/

@[simp] theorem loadOctet_params (s : State) : (loadOctet s).params = s.params := rfl
@[simp] theorem loadOctet_tag (s : State) : (loadOctet s).tag = s.tag := rfl
@[simp] theorem loadOctet_cfgOk (s : State) : (loadOctet s).cfgOk = s.cfgOk := rfl
@[simp] theorem loadOctet_encLut (s : State) : (loadOctet s).encLut = s.encLut := rfl
@[simp] theorem loadOctet_decLut (s : State) : (loadOctet s).decLut = s.decLut := rfl
@[simp] theorem loadOctet_err (s : State) : (loadOctet s).err = s.err := rfl
@[simp] theorem loadOctet_busy (s : State) : (loadOctet s).busy = s.busy := rfl
@[simp] theorem loadOctet_inLen (s : State) : (loadOctet s).inLen = s.inLen := rfl
@[simp] theorem loadOctet_inBuf (s : State) : (loadOctet s).inBuf = s.inBuf := rfl
@[simp] theorem loadOctet_outLen (s : State) : (loadOctet s).outLen = s.outLen := rfl
@[simp] theorem loadOctet_outBuf (s : State) : (loadOctet s).outBuf = s.outBuf := rfl
@[simp] theorem loadOctet_pos (s : State) : (loadOctet s).pos = s.pos + 1 := rfl
@[simp] theorem loadOctet_wpos (s : State) : (loadOctet s).wpos = s.wpos := rfl
@[simp] theorem loadOctet_eb (s : State) : (loadOctet s).eb = s.eb.setIfInBounds s.gcnt.toNat (coreReadIn s s.pos) := rfl
@[simp] theorem loadOctet_ds (s : State) : (loadOctet s).ds = s.ds := rfl
@[simp] theorem loadOctet_gcnt (s : State) : (loadOctet s).gcnt = s.gcnt + 1#3 := rfl
@[simp] theorem loadOctet_escPend (s : State) : (loadOctet s).escPend = s.escPend := rfl
@[simp] theorem loadOctet_mode (s : State) : (loadOctet s).mode = s.mode := rfl
@[simp] theorem loadOctet_host (s : State) : (loadOctet s).host = s.host := rfl
@[simp] theorem loadOctet_reply (s : State) : (loadOctet s).reply = s.reply := rfl
@[simp] theorem loadOctet_draws (s : State) : (loadOctet s).draws = s.draws := rfl

/-! ### `pushSymbol` -/

@[simp] theorem pushSymbol_params (v : Sextet) (s : State) : (pushSymbol v s).params = s.params := rfl
@[simp] theorem pushSymbol_tag (v : Sextet) (s : State) : (pushSymbol v s).tag = s.tag := rfl
@[simp] theorem pushSymbol_cfgOk (v : Sextet) (s : State) : (pushSymbol v s).cfgOk = s.cfgOk := rfl
@[simp] theorem pushSymbol_encLut (v : Sextet) (s : State) : (pushSymbol v s).encLut = s.encLut := rfl
@[simp] theorem pushSymbol_decLut (v : Sextet) (s : State) : (pushSymbol v s).decLut = s.decLut := rfl
@[simp] theorem pushSymbol_err (v : Sextet) (s : State) : (pushSymbol v s).err = s.err := rfl
@[simp] theorem pushSymbol_busy (v : Sextet) (s : State) : (pushSymbol v s).busy = s.busy := rfl
@[simp] theorem pushSymbol_inLen (v : Sextet) (s : State) : (pushSymbol v s).inLen = s.inLen := rfl
@[simp] theorem pushSymbol_inBuf (v : Sextet) (s : State) : (pushSymbol v s).inBuf = s.inBuf := rfl
@[simp] theorem pushSymbol_outLen (v : Sextet) (s : State) : (pushSymbol v s).outLen = s.outLen := rfl
@[simp] theorem pushSymbol_outBuf (v : Sextet) (s : State) : (pushSymbol v s).outBuf = s.outBuf := rfl
@[simp] theorem pushSymbol_pos (v : Sextet) (s : State) : (pushSymbol v s).pos = s.pos := rfl
@[simp] theorem pushSymbol_wpos (v : Sextet) (s : State) : (pushSymbol v s).wpos = s.wpos := rfl
@[simp] theorem pushSymbol_eb (v : Sextet) (s : State) : (pushSymbol v s).eb = s.eb := rfl
@[simp] theorem pushSymbol_ds (v : Sextet) (s : State) : (pushSymbol v s).ds = s.ds.setIfInBounds s.gcnt.toNat v := rfl
@[simp] theorem pushSymbol_gcnt (v : Sextet) (s : State) : (pushSymbol v s).gcnt = s.gcnt + 1#3 := rfl
@[simp] theorem pushSymbol_escPend (v : Sextet) (s : State) : (pushSymbol v s).escPend = s.escPend := rfl
@[simp] theorem pushSymbol_mode (v : Sextet) (s : State) : (pushSymbol v s).mode = s.mode := rfl
@[simp] theorem pushSymbol_host (v : Sextet) (s : State) : (pushSymbol v s).host = s.host := rfl
@[simp] theorem pushSymbol_reply (v : Sextet) (s : State) : (pushSymbol v s).reply = s.reply := rfl
@[simp] theorem pushSymbol_draws (v : Sextet) (s : State) : (pushSymbol v s).draws = s.draws := rfl

/-! ### `resolveEscape` -/

@[simp] theorem resolveEscape_params (v : Sextet) (s : State) : (resolveEscape v s).params = s.params := rfl
@[simp] theorem resolveEscape_tag (v : Sextet) (s : State) : (resolveEscape v s).tag = s.tag := rfl
@[simp] theorem resolveEscape_cfgOk (v : Sextet) (s : State) : (resolveEscape v s).cfgOk = s.cfgOk := rfl
@[simp] theorem resolveEscape_encLut (v : Sextet) (s : State) : (resolveEscape v s).encLut = s.encLut := rfl
@[simp] theorem resolveEscape_decLut (v : Sextet) (s : State) : (resolveEscape v s).decLut = s.decLut := rfl
@[simp] theorem resolveEscape_err (v : Sextet) (s : State) : (resolveEscape v s).err = s.err := rfl
@[simp] theorem resolveEscape_busy (v : Sextet) (s : State) : (resolveEscape v s).busy = s.busy := rfl
@[simp] theorem resolveEscape_inLen (v : Sextet) (s : State) : (resolveEscape v s).inLen = s.inLen := rfl
@[simp] theorem resolveEscape_inBuf (v : Sextet) (s : State) : (resolveEscape v s).inBuf = s.inBuf := rfl
@[simp] theorem resolveEscape_outLen (v : Sextet) (s : State) : (resolveEscape v s).outLen = s.outLen := rfl
@[simp] theorem resolveEscape_outBuf (v : Sextet) (s : State) : (resolveEscape v s).outBuf = s.outBuf := rfl
@[simp] theorem resolveEscape_pos (v : Sextet) (s : State) : (resolveEscape v s).pos = s.pos := rfl
@[simp] theorem resolveEscape_wpos (v : Sextet) (s : State) : (resolveEscape v s).wpos = s.wpos := rfl
@[simp] theorem resolveEscape_eb (v : Sextet) (s : State) : (resolveEscape v s).eb = s.eb := rfl
@[simp] theorem resolveEscape_ds (v : Sextet) (s : State) : (resolveEscape v s).ds = s.ds.setIfInBounds s.gcnt.toNat v := rfl
@[simp] theorem resolveEscape_gcnt (v : Sextet) (s : State) : (resolveEscape v s).gcnt = s.gcnt + 1#3 := rfl
@[simp] theorem resolveEscape_escPend (v : Sextet) (s : State) : (resolveEscape v s).escPend = false := rfl
@[simp] theorem resolveEscape_mode (v : Sextet) (s : State) : (resolveEscape v s).mode = s.mode := rfl
@[simp] theorem resolveEscape_host (v : Sextet) (s : State) : (resolveEscape v s).host = s.host := rfl
@[simp] theorem resolveEscape_reply (v : Sextet) (s : State) : (resolveEscape v s).reply = s.reply := rfl
@[simp] theorem resolveEscape_draws (v : Sextet) (s : State) : (resolveEscape v s).draws = s.draws := rfl

/-! ### `storeItems` -/

@[simp] theorem storeItems_params (l : List (BitVec 8)) (s : State) : (storeItems l s).params = s.params := rfl
@[simp] theorem storeItems_tag (l : List (BitVec 8)) (s : State) : (storeItems l s).tag = s.tag := rfl
@[simp] theorem storeItems_cfgOk (l : List (BitVec 8)) (s : State) : (storeItems l s).cfgOk = s.cfgOk := rfl
@[simp] theorem storeItems_encLut (l : List (BitVec 8)) (s : State) : (storeItems l s).encLut = s.encLut := rfl
@[simp] theorem storeItems_decLut (l : List (BitVec 8)) (s : State) : (storeItems l s).decLut = s.decLut := rfl
@[simp] theorem storeItems_err (l : List (BitVec 8)) (s : State) : (storeItems l s).err = s.err := rfl
@[simp] theorem storeItems_busy (l : List (BitVec 8)) (s : State) : (storeItems l s).busy = s.busy := rfl
@[simp] theorem storeItems_inLen (l : List (BitVec 8)) (s : State) : (storeItems l s).inLen = s.inLen := rfl
@[simp] theorem storeItems_inBuf (l : List (BitVec 8)) (s : State) : (storeItems l s).inBuf = s.inBuf := rfl
@[simp] theorem storeItems_outLen (l : List (BitVec 8)) (s : State) : (storeItems l s).outLen = s.outLen := rfl
@[simp] theorem storeItems_outBuf (l : List (BitVec 8)) (s : State) : (storeItems l s).outBuf = s.outBuf.writeAll s.wpos l := rfl
@[simp] theorem storeItems_pos (l : List (BitVec 8)) (s : State) : (storeItems l s).pos = s.pos := rfl
@[simp] theorem storeItems_wpos (l : List (BitVec 8)) (s : State) : (storeItems l s).wpos = s.wpos + l.length := rfl
@[simp] theorem storeItems_eb (l : List (BitVec 8)) (s : State) : (storeItems l s).eb = s.eb := rfl
@[simp] theorem storeItems_ds (l : List (BitVec 8)) (s : State) : (storeItems l s).ds = s.ds := rfl
@[simp] theorem storeItems_gcnt (l : List (BitVec 8)) (s : State) : (storeItems l s).gcnt = s.gcnt := rfl
@[simp] theorem storeItems_escPend (l : List (BitVec 8)) (s : State) : (storeItems l s).escPend = s.escPend := rfl
@[simp] theorem storeItems_mode (l : List (BitVec 8)) (s : State) : (storeItems l s).mode = s.mode := rfl
@[simp] theorem storeItems_host (l : List (BitVec 8)) (s : State) : (storeItems l s).host = s.host := rfl
@[simp] theorem storeItems_reply (l : List (BitVec 8)) (s : State) : (storeItems l s).reply = s.reply := rfl
@[simp] theorem storeItems_draws (l : List (BitVec 8)) (s : State) : (storeItems l s).draws = s.draws := rfl

/-! ### `commitTables` -/

@[simp] theorem commitTables_params (c : CharCode) (s : State) : (commitTables c s).params = s.params := rfl
@[simp] theorem commitTables_tag (c : CharCode) (s : State) : (commitTables c s).tag = c := rfl
@[simp] theorem commitTables_cfgOk (c : CharCode) (s : State) : (commitTables c s).cfgOk = true := rfl
@[simp] theorem commitTables_encLut (c : CharCode) (s : State) : (commitTables c s).encLut = buildEnc (alphaIndex c) := rfl
@[simp] theorem commitTables_decLut (c : CharCode) (s : State) : (commitTables c s).decLut = buildDec (buildEnc (alphaIndex c)) := rfl
@[simp] theorem commitTables_err (c : CharCode) (s : State) : (commitTables c s).err = .ok := rfl
@[simp] theorem commitTables_busy (c : CharCode) (s : State) : (commitTables c s).busy = s.busy := rfl
@[simp] theorem commitTables_inLen (c : CharCode) (s : State) : (commitTables c s).inLen = s.inLen := rfl
@[simp] theorem commitTables_inBuf (c : CharCode) (s : State) : (commitTables c s).inBuf = s.inBuf := rfl
@[simp] theorem commitTables_outLen (c : CharCode) (s : State) : (commitTables c s).outLen = s.outLen := rfl
@[simp] theorem commitTables_outBuf (c : CharCode) (s : State) : (commitTables c s).outBuf = s.outBuf := rfl
@[simp] theorem commitTables_pos (c : CharCode) (s : State) : (commitTables c s).pos = s.pos := rfl
@[simp] theorem commitTables_wpos (c : CharCode) (s : State) : (commitTables c s).wpos = s.wpos := rfl
@[simp] theorem commitTables_eb (c : CharCode) (s : State) : (commitTables c s).eb = s.eb := rfl
@[simp] theorem commitTables_ds (c : CharCode) (s : State) : (commitTables c s).ds = s.ds := rfl
@[simp] theorem commitTables_gcnt (c : CharCode) (s : State) : (commitTables c s).gcnt = s.gcnt := rfl
@[simp] theorem commitTables_escPend (c : CharCode) (s : State) : (commitTables c s).escPend = s.escPend := rfl
@[simp] theorem commitTables_mode (c : CharCode) (s : State) : (commitTables c s).mode = s.mode := rfl
@[simp] theorem commitTables_host (c : CharCode) (s : State) : (commitTables c s).host = s.host := rfl
@[simp] theorem commitTables_reply (c : CharCode) (s : State) : (commitTables c s).reply = s.reply := rfl
@[simp] theorem commitTables_draws (c : CharCode) (s : State) : (commitTables c s).draws = s.draws := rfl

/-! ### `acceptEnc` -/

@[simp] theorem acceptEnc_params (s : State) : (acceptEnc s).params = s.params := rfl
@[simp] theorem acceptEnc_tag (s : State) : (acceptEnc s).tag = s.tag := rfl
@[simp] theorem acceptEnc_cfgOk (s : State) : (acceptEnc s).cfgOk = s.cfgOk := rfl
@[simp] theorem acceptEnc_encLut (s : State) : (acceptEnc s).encLut = s.encLut := rfl
@[simp] theorem acceptEnc_decLut (s : State) : (acceptEnc s).decLut = s.decLut := rfl
@[simp] theorem acceptEnc_err (s : State) : (acceptEnc s).err = .ok := rfl
@[simp] theorem acceptEnc_busy (s : State) : (acceptEnc s).busy = true := rfl
@[simp] theorem acceptEnc_inLen (s : State) : (acceptEnc s).inLen = s.inLen := rfl
@[simp] theorem acceptEnc_inBuf (s : State) : (acceptEnc s).inBuf = s.inBuf := rfl
@[simp] theorem acceptEnc_outLen (s : State) : (acceptEnc s).outLen = 0 := rfl
@[simp] theorem acceptEnc_outBuf (s : State) : (acceptEnc s).outBuf = s.outBuf := rfl
@[simp] theorem acceptEnc_pos (s : State) : (acceptEnc s).pos = 0 := rfl
@[simp] theorem acceptEnc_wpos (s : State) : (acceptEnc s).wpos = 0 := rfl
@[simp] theorem acceptEnc_eb (s : State) : (acceptEnc s).eb = s.eb := rfl
@[simp] theorem acceptEnc_ds (s : State) : (acceptEnc s).ds = s.ds := rfl
@[simp] theorem acceptEnc_gcnt (s : State) : (acceptEnc s).gcnt = 0#3 := rfl
@[simp] theorem acceptEnc_escPend (s : State) : (acceptEnc s).escPend = s.escPend := rfl
@[simp] theorem acceptEnc_mode (s : State) : (acceptEnc s).mode = .enc := rfl
@[simp] theorem acceptEnc_host (s : State) : (acceptEnc s).host = s.host := rfl
@[simp] theorem acceptEnc_reply (s : State) : (acceptEnc s).reply = s.reply := rfl
@[simp] theorem acceptEnc_draws (s : State) : (acceptEnc s).draws = s.draws := rfl

/-! ### `acceptDec` -/

@[simp] theorem acceptDec_params (s : State) : (acceptDec s).params = s.params := rfl
@[simp] theorem acceptDec_tag (s : State) : (acceptDec s).tag = s.tag := rfl
@[simp] theorem acceptDec_cfgOk (s : State) : (acceptDec s).cfgOk = s.cfgOk := rfl
@[simp] theorem acceptDec_encLut (s : State) : (acceptDec s).encLut = s.encLut := rfl
@[simp] theorem acceptDec_decLut (s : State) : (acceptDec s).decLut = s.decLut := rfl
@[simp] theorem acceptDec_err (s : State) : (acceptDec s).err = .ok := rfl
@[simp] theorem acceptDec_busy (s : State) : (acceptDec s).busy = true := rfl
@[simp] theorem acceptDec_inLen (s : State) : (acceptDec s).inLen = s.inLen := rfl
@[simp] theorem acceptDec_inBuf (s : State) : (acceptDec s).inBuf = s.inBuf := rfl
@[simp] theorem acceptDec_outLen (s : State) : (acceptDec s).outLen = 0 := rfl
@[simp] theorem acceptDec_outBuf (s : State) : (acceptDec s).outBuf = s.outBuf := rfl
@[simp] theorem acceptDec_pos (s : State) : (acceptDec s).pos = 0 := rfl
@[simp] theorem acceptDec_wpos (s : State) : (acceptDec s).wpos = 0 := rfl
@[simp] theorem acceptDec_eb (s : State) : (acceptDec s).eb = s.eb := rfl
@[simp] theorem acceptDec_ds (s : State) : (acceptDec s).ds = s.ds := rfl
@[simp] theorem acceptDec_gcnt (s : State) : (acceptDec s).gcnt = 0#3 := rfl
@[simp] theorem acceptDec_escPend (s : State) : (acceptDec s).escPend = false := rfl
@[simp] theorem acceptDec_mode (s : State) : (acceptDec s).mode = .dec := rfl
@[simp] theorem acceptDec_host (s : State) : (acceptDec s).host = s.host := rfl
@[simp] theorem acceptDec_reply (s : State) : (acceptDec s).reply = s.reply := rfl
@[simp] theorem acceptDec_draws (s : State) : (acceptDec s).draws = s.draws := rfl

/-! ### `abort` -/

@[simp] theorem abort_params (e : ErrCode) (s : State) : (abort e s).params = s.params := rfl
@[simp] theorem abort_tag (e : ErrCode) (s : State) : (abort e s).tag = s.tag := rfl
@[simp] theorem abort_cfgOk (e : ErrCode) (s : State) : (abort e s).cfgOk = s.cfgOk := rfl
@[simp] theorem abort_encLut (e : ErrCode) (s : State) : (abort e s).encLut = s.encLut := rfl
@[simp] theorem abort_decLut (e : ErrCode) (s : State) : (abort e s).decLut = s.decLut := rfl
@[simp] theorem abort_err (e : ErrCode) (s : State) : (abort e s).err = e := rfl
@[simp] theorem abort_busy (e : ErrCode) (s : State) : (abort e s).busy = false := rfl
@[simp] theorem abort_inLen (e : ErrCode) (s : State) : (abort e s).inLen = s.inLen := rfl
@[simp] theorem abort_inBuf (e : ErrCode) (s : State) : (abort e s).inBuf = s.inBuf := rfl
@[simp] theorem abort_outLen (e : ErrCode) (s : State) : (abort e s).outLen = 0 := rfl
@[simp] theorem abort_outBuf (e : ErrCode) (s : State) : (abort e s).outBuf = [] := rfl
@[simp] theorem abort_eb (e : ErrCode) (s : State) : (abort e s).eb = Config.freeEb s.draws := rfl
@[simp] theorem abort_ds (e : ErrCode) (s : State) : (abort e s).ds = Config.freeDs s.draws := rfl
@[simp] theorem abort_escPend (e : ErrCode) (s : State) : (abort e s).escPend = Config.freeEscPend s.draws := rfl
@[simp] theorem abort_host (e : ErrCode) (s : State) : (abort e s).host = s.host := rfl
@[simp] theorem abort_reply (e : ErrCode) (s : State) : (abort e s).reply = s.reply := rfl
@[simp] theorem abort_draws (e : ErrCode) (s : State) : (abort e s).draws = s.draws + 1 := rfl

/-! ### `resetBlock` -/

@[simp] theorem resetBlock_params (s : State) : (resetBlock s).params = s.params := rfl
@[simp] theorem resetBlock_tag (s : State) : (resetBlock s).tag = 0#8 := rfl
@[simp] theorem resetBlock_cfgOk (s : State) : (resetBlock s).cfgOk = false := rfl
@[simp] theorem resetBlock_err (s : State) : (resetBlock s).err = .ok := rfl
@[simp] theorem resetBlock_busy (s : State) : (resetBlock s).busy = false := rfl
@[simp] theorem resetBlock_inLen (s : State) : (resetBlock s).inLen = 0 := rfl
@[simp] theorem resetBlock_inBuf (s : State) : (resetBlock s).inBuf = [] := rfl
@[simp] theorem resetBlock_outLen (s : State) : (resetBlock s).outLen = 0 := rfl
@[simp] theorem resetBlock_outBuf (s : State) : (resetBlock s).outBuf = [] := rfl
@[simp] theorem resetBlock_pos (s : State) : (resetBlock s).pos = 0 := rfl
@[simp] theorem resetBlock_wpos (s : State) : (resetBlock s).wpos = 0 := rfl
@[simp] theorem resetBlock_gcnt (s : State) : (resetBlock s).gcnt = 0#3 := rfl
@[simp] theorem resetBlock_escPend (s : State) : (resetBlock s).escPend = false := rfl
@[simp] theorem resetBlock_mode (s : State) : (resetBlock s).mode = .enc := rfl
@[simp] theorem resetBlock_host (s : State) : (resetBlock s).host = s.host := rfl
@[simp] theorem resetBlock_reply (s : State) : (resetBlock s).reply = .silent := rfl
@[simp] theorem resetBlock_draws (s : State) : (resetBlock s).draws = s.draws := rfl

/-! ### `raiseError`, by cause (R118) -/

@[simp] theorem raiseError_ok (s : State) : raiseError .ok s = { s with err := .ok } := rfl
@[simp] theorem raiseError_invalidConfiguration (s : State) :
    raiseError .invalidConfiguration s = { s with err := .invalidConfiguration } := rfl
@[simp] theorem raiseError_unrecognizedCharacter (s : State) :
    raiseError .unrecognizedCharacter s = abort .unrecognizedCharacter s := rfl
@[simp] theorem raiseError_invalidEscape (s : State) :
    raiseError .invalidEscape s = abort .invalidEscape s := rfl
@[simp] theorem raiseError_danglingSymbol (s : State) :
    raiseError .danglingSymbol s = abort .danglingSymbol s := rfl
@[simp] theorem raiseError_notConfigured (s : State) :
    raiseError .notConfigured s = { s with err := .notConfigured, outLen := 0 } := rfl
@[simp] theorem raiseError_illegalCommand (s : State) :
    raiseError .illegalCommand s = { s with err := .illegalCommand } := rfl

end Sys2Proof.Machine
end

