-- ==== Sys2Proof/Laws/Ops.lean ====
section
/-! SUPPORT. The laws of the buffers and of the shared operations: what each can do, said once. -/

namespace Sys2Proof.Machine

/-! ### Sequencing -/

@[simp] theorem seq_next (s : State) (k : State → Result) : seq (.next s) k = k s := rfl
@[simp] theorem seq_fault (f : Fault) (k : State → Result) : seq (.fault f) k = .fault f := rfl
@[simp] theorem seq_refused (q : Refusal) (k : State → Result) : seq (.refused q) k = .refused q := rfl

/-- A sequence that answers a next state went through an intermediate one. -/
theorem seq_eq_next {r : Result} {k : State → Result} {t : State} (h : seq r k = .next t) :
    ∃ u, r = .next u ∧ k u = .next t := by
  cases r with
  | next u => exact ⟨u, rfl, h⟩
  | fault f => cases h
  | refused q => cases h

theorem seq_assoc (r : Result) (k l : State → Result) :
    seq (seq r k) l = seq r fun u => seq (k u) l := by
  cases r <;> rfl

@[simp] theorem whenIdle_busy {s : State} (r : Result) (h : s.busy = true) : whenIdle s r = .next s := by
  simp [whenIdle, h]

@[simp] theorem whenIdle_idle {s : State} (r : Result) (h : s.busy = false) : whenIdle s r = r := by
  simp [whenIdle, h]

/-- A command's two cases: not accepted, with nothing changed, or accepted. -/
theorem whenIdle_cases {s t : State} {r : Result} (h : whenIdle s r = .next t) :
    (s.busy = true ∧ t = s) ∨ (s.busy = false ∧ r = .next t) := by
  unfold whenIdle at h
  split at h
  · next hb => exact .inl ⟨hb, by cases h; rfl⟩
  · next hb => exact .inr ⟨by simpa using hb, h⟩

/-! ### Buffers -/

@[simp] theorem Mem.read_nil (i : Nat) : Mem.read [] i = none := rfl

/-- A write is read back. -/
@[simp] theorem Mem.read_write_same (m : Mem) (i : Nat) (v : BitVec 8) : (m.write i v).read i = some v := by
  induction m with
  | nil => simp [Mem.write, Mem.read]
  | cons p rest ih =>
    obtain ⟨a, b⟩ := p
    simp only [Mem.write]
    split
    · simp [Mem.read]
    · split
      · simp [Mem.read]
      · next h => simp [Mem.read, Ne.symm h, ih]

/-- A write leaves every other index alone. -/
theorem Mem.read_write_other (m : Mem) {i j : Nat} (v : BitVec 8) (h : j ≠ i) :
    (m.write i v).read j = m.read j := by
  induction m with
  | nil => simp [Mem.write, Mem.read, Ne.symm h]
  | cons p rest ih =>
    obtain ⟨a, b⟩ := p
    simp only [Mem.write]
    split
    · simp [Mem.read, Ne.symm h]
    · split
      · next h2 => subst h2; simp [Mem.read, Ne.symm h]
      · simp only [Mem.read, ih]

/-- The indices of a written buffer: the written one and the old ones. -/
theorem Mem.mem_write {m : Mem} {i : Nat} {v : BitVec 8} {p : Host.Cell} (h : p ∈ m.write i v) :
    p = (i, v) ∨ p ∈ m := by
  induction m with
  | nil => simpa [Mem.write] using h
  | cons q rest ih =>
    obtain ⟨a, b⟩ := q
    simp only [Mem.write] at h
    split at h
    · simpa using h
    · split at h
      · rcases List.mem_cons.mp h with h | h
        · exact .inl h
        · exact .inr (List.mem_cons_of_mem _ h)
      · rcases List.mem_cons.mp h with h | h
        · exact .inr (h ▸ List.mem_cons_self)
        · exact (ih h).imp id (List.mem_cons_of_mem _)

/-- A write keeps the canonical form. -/
theorem Mem.wf_write {m : Mem} (h : m.wf) (i : Nat) (v : BitVec 8) : (m.write i v).wf := by
  induction m with
  | nil => simp [Mem.write, Mem.wf]
  | cons q rest ih =>
    obtain ⟨a, b⟩ := q
    obtain ⟨hq, hr⟩ := List.pairwise_cons.mp h
    simp only [Mem.write]
    split
    · next hia =>
      refine List.pairwise_cons.mpr ⟨fun p hp => ?_, h⟩
      rcases List.mem_cons.mp hp with rfl | hp
      · exact hia
      · exact lt_trans hia (hq p hp)
    · split
      · next hia => exact List.pairwise_cons.mpr ⟨fun p hp => by subst hia; exact hq p hp, hr⟩
      · refine List.pairwise_cons.mpr ⟨fun p hp => ?_, ih hr⟩
        rcases Mem.mem_write hp with rfl | hp
        · show a < i; omega
        · exact hq p hp

@[simp] theorem Mem.writeAll_nil (m : Mem) (i : Nat) : m.writeAll i [] = m := rfl

@[simp] theorem Mem.writeAll_cons (m : Mem) (i : Nat) (v : BitVec 8) (l : List (BitVec 8)) :
    m.writeAll i (v :: l) = (m.write i v).writeAll (i + 1) l := rfl

theorem Mem.writeAll_append (m : Mem) (i : Nat) (l k : List (BitVec 8)) :
    m.writeAll i (l ++ k) = (m.writeAll i l).writeAll (i + l.length) k := by
  induction l generalizing m i with
  | nil => simp
  | cons v l ih => simp [ih, Nat.add_assoc, Nat.add_comm 1]

/-- Writing a list keeps the canonical form. -/
theorem Mem.wf_writeAll {m : Mem} (h : m.wf) (i : Nat) (l : List (BitVec 8)) : (m.writeAll i l).wf := by
  induction l generalizing m i with
  | nil => exact h
  | cons v l ih => exact ih (Mem.wf_write h i v) (i + 1)

/-- Writing a list leaves the indices outside it alone. -/
theorem Mem.read_writeAll_other (m : Mem) {i j : Nat} (l : List (BitVec 8)) (h : j < i ∨ i + l.length ≤ j) :
    (m.writeAll i l).read j = m.read j := by
  induction l generalizing m i with
  | nil => rfl
  | cons v l ih =>
    simp only [List.length_cons] at h
    rw [Mem.writeAll_cons, ih _ (by omega), Mem.read_write_other _ _ (by omega)]

/-- Writing a list is read back item by item. -/
theorem Mem.read_writeAll_at (m : Mem) (i : Nat) (l : List (BitVec 8)) {k : Nat} (h : k < l.length) :
    (m.writeAll i l).read (i + k) = l[k]? := by
  induction l generalizing m i k with
  | nil => simp at h
  | cons v l ih =>
    cases k with
    | zero => rw [Mem.writeAll_cons, Mem.read_writeAll_other _ _ (by omega)]; simp
    | succ k =>
      rw [Mem.writeAll_cons, show i + (k + 1) = i + 1 + k by omega, ih _ _ (by simpa using h)]
      simp

/-- What one index of a buffer holds after a list is written. -/
theorem Mem.read_writeAll (m : Mem) (i j : Nat) (l : List (BitVec 8)) :
    (m.writeAll i l).read j = if i ≤ j ∧ j < i + l.length then l[j - i]? else m.read j := by
  split
  · next h =>
    obtain ⟨k, rfl⟩ := Nat.exists_eq_add_of_le h.1
    rw [Mem.read_writeAll_at _ _ _ (by omega)]; simp
  · next h => exact Mem.read_writeAll_other _ _ (by omega)

/-- The buffers of the state after reset have the canonical form. -/
theorem reset_buffers_wf (p : Params) : (State.resetWith p).inBuf.wf ∧ (State.resetWith p).outBuf.wf :=
  ⟨List.Pairwise.nil, List.Pairwise.nil⟩

/-! ### Writing output -/

/-- Everything `putItem` can do. -/
theorem putItem_eq_next {c : BitVec 8} {s t : State} (h : putItem c s = .next t) :
    outHolds s.params s.wpos = true ∧ t = storeItems [c] s := by
  unfold putItem at h
  split at h
  · next hr => cases h; exact ⟨hr, rfl⟩
  · cases h

theorem outRoom_of_le {p : Params} {m n : Nat} (h : outRoom p n = true) (hmn : m ≤ n) :
    outRoom p m = true := by
  unfold outRoom at *
  split <;> simp_all
  omega

theorem outHolds_iff_outRoom (p : Params) (i : Nat) : outHolds p i = outRoom p (i + 1) := by
  unfold outHolds outRoom
  split <;> rfl

theorem storeItems_nil (s : State) : storeItems [] s = s := rfl

theorem storeItems_append (l k : List (BitVec 8)) (s : State) :
    storeItems (l ++ k) s = storeItems k (storeItems l s) := by
  simp [storeItems, Mem.writeAll_append, Nat.add_assoc]

/-- Where there is room, `putItems l` leaves `storeItems l`. -/
theorem putItems_room {l : List (BitVec 8)} {s : State} (h : outRoom s.params (s.wpos + l.length) = true) :
    putItems l s = .next (storeItems l s) := by
  induction l generalizing s with
  | nil => rfl
  | cons c l ih =>
    have h1 : outHolds s.params s.wpos = true := by
      rw [outHolds_iff_outRoom]
      exact outRoom_of_le h (by simp)
    have h2 : putItem c s = .next (storeItems [c] s) := by simp [putItem, h1, storeItems]
    rw [putItems, h2, seq_next, ih (by simpa [Nat.add_assoc, Nat.add_comm 1] using h)]
    rw [← storeItems_append]; rfl

/-- Everything `putItems` can do. -/
theorem putItems_eq_next {l : List (BitVec 8)} {s t : State} (h : putItems l s = .next t) :
    t = storeItems l s ∧ (l ≠ [] → outRoom s.params (s.wpos + l.length) = true) := by
  induction l generalizing s with
  | nil => cases h; exact ⟨rfl, fun h => (h rfl).elim⟩
  | cons c l ih =>
    obtain ⟨u, hu, ht⟩ := seq_eq_next h
    obtain ⟨hr, rfl⟩ := putItem_eq_next hu
    obtain ⟨rfl, hl⟩ := ih ht
    refine ⟨by rw [← storeItems_append]; rfl, fun _ => ?_⟩
    by_cases hn : l = []
    · subst hn; simpa [← outHolds_iff_outRoom] using hr
    · simpa [Nat.add_assoc, Nat.add_comm 1] using hl hn

end Sys2Proof.Machine
end

