-- ==== Sys2Proof/Laws/Datapath.lean ====
section
/-! SUPPORT. The laws of the encode and decode datapaths: the escape mux and the selected
micro-operations. -/

namespace Sys2Proof.Machine

theorem textOf_nil (tag : CharCode) (enc : EncLut) : textOf tag enc [] = [] := rfl

theorem textOf_cons (tag : CharCode) (enc : EncLut) (v : Sextet) (vs : List Sextet) :
    textOf tag enc (v :: vs) = (encTable tag enc v).chars ++ textOf tag enc vs := by
  simp [textOf]

theorem textOf_append (tag : CharCode) (enc : EncLut) (us vs : List Sextet) :
    textOf tag enc (us ++ vs) = textOf tag enc us ++ textOf tag enc vs := by
  simp [textOf]

/-- The escape mux writes the characters of the encode table's symbol. -/
theorem emit_eq_putItems (v : Sextet) (s : State) :
    emit v s = putItems (encTable s.tag s.encLut v).chars s := by
  unfold emit
  split
  · next h => subst h; rfl
  split
  · next h => subst h; rfl
  split
  · next h => subst h; rfl
  next h1 h2 h3 =>
    have hv : v.toNat < 61 := by
      have := v.isLt
      have e1 : v.toNat ≠ 61 := fun h => h1 (BitVec.eq_of_toNat_eq h)
      have e2 : v.toNat ≠ 62 := fun h => h2 (BitVec.eq_of_toNat_eq h)
      have e3 : v.toNat ≠ 63 := fun h => h3 (BitVec.eq_of_toNat_eq h)
      omega
    have hi : s.encLut[v.toNat]? = some s.encLut[v.toNat] := by simp [hv]
    simp only [execEmitD, hi, encTable, hv, dif_pos, Symbol.chars, putItems]
    cases putItem s.encLut[v.toNat] s <;> rfl

/-- Where there is room, `emitAll` leaves the text of the sextets. -/
theorem emitAll_room {vs : List Sextet} {s : State}
    (h : outRoom s.params (s.wpos + (textOf s.tag s.encLut vs).length) = true) :
    emitAll vs s = .next (storeItems (textOf s.tag s.encLut vs) s) := by
  induction vs generalizing s with
  | nil => rfl
  | cons v vs ih =>
    rw [textOf_cons, List.length_append] at h
    rw [emitAll, emit_eq_putItems, putItems_room (outRoom_of_le h (by omega)), seq_next, ih]
    · rw [textOf_cons, storeItems_append]; rfl
    · simpa [Nat.add_assoc] using h

/-- Everything `emitAll` can do. -/
theorem emitAll_eq_next {vs : List Sextet} {s t : State} (h : emitAll vs s = .next t) :
    t = storeItems (textOf s.tag s.encLut vs) s := by
  induction vs generalizing s with
  | nil => cases h; rfl
  | cons v vs ih =>
    obtain ⟨u, hu, ht⟩ := seq_eq_next h
    rw [emit_eq_putItems] at hu
    obtain ⟨rfl, -⟩ := putItems_eq_next hu
    rw [ih ht, textOf_cons, storeItems_append]; rfl

/-- A selected micro-operation runs its own meaning; no command is ever selected. -/
theorem runSelected_eq_exec {i : Instr} {s t : State} (h : runSelected i s = .next t) :
    exec i s = .next t := by
  cases i <;> first | exact h | cases h

/-- The group dispatcher never selects a command. -/
theorem decodeGsel_runs {g : BitVec 5} {i : Instr} (h : decodeGsel g = .ok i) (s : State) :
    runSelected i s = exec i s := by
  unfold decodeGsel at h
  repeat' split at h
  all_goals first | (cases h; rfl) | cases h

/-- The character selectors never select a command. -/
theorem selectChar_runs (c : CharCode) (s u : State) :
    runSelected (selectChar c s) u = exec (selectChar c s) u := by
  unfold selectChar decodeEscDigit decodeClassify
  repeat' split
  all_goals rfl

/-- What the group dispatcher does with a selector that occurs. -/
theorem dispatch_ok {eoi : Bool} {s : State} {i : Instr} (h : decodeGsel (gsel s eoi) = .ok i) :
    dispatch eoi s = exec i s := by
  rw [dispatch, h]; exact decodeGsel_runs h s

end Sys2Proof.Machine
end

