-- ==== Sys2Proof/Laws/PerInstr.lean ====
section
/-! SUPPORT. Statements made for each instruction as syntax, one lemma per constructor. -/

namespace Sys2Proof.Laws.Expansion

/-- The expansion of an instruction has the same word, is well formed when the instruction is, and needs no
further expansion (R59). -/
def Statement (i : Instr) : Prop :=
  encode i.expand = encode i ∧ (WellFormed i = true → WellFormed i.expand = true) ∧
    i.expand.expand = i.expand

theorem cfg (tlen : BitVec 2) (tchar : CharCode) : Statement (.cfg tlen tchar) := ⟨rfl, id, rfl⟩
theorem enc : Statement .enc := ⟨rfl, id, rfl⟩
theorem dec : Statement .dec := ⟨rfl, id, rfl⟩
theorem cfgDefault : Statement .cfgDefault := ⟨by decide, fun _ => rfl, rfl⟩
theorem illegalOp (low : BitVec 10) : Statement (.illegalOp low) := ⟨rfl, id, rfl⟩
theorem illegalOperand (m : Mode) (low : BitVec 10) : Statement (.illegalOperand m low) := ⟨rfl, id, rfl⟩
theorem pack3 : Statement .pack3 := ⟨rfl, id, rfl⟩
theorem pack2 : Statement .pack2 := ⟨rfl, id, rfl⟩
theorem pack1 : Statement .pack1 := ⟨rfl, id, rfl⟩
theorem pack0 : Statement .pack0 := ⟨rfl, id, rfl⟩
theorem unpack4 : Statement .unpack4 := ⟨rfl, id, rfl⟩
theorem unpack3 : Statement .unpack3 := ⟨rfl, id, rfl⟩
theorem unpack2 : Statement .unpack2 := ⟨rfl, id, rfl⟩
theorem unpack1 : Statement .unpack1 := ⟨rfl, id, rfl⟩
theorem unpack0 : Statement .unpack0 := ⟨rfl, id, rfl⟩
theorem noDispatch (m : Mode) (g : BitVec 3) : Statement (.noDispatch m g) := ⟨rfl, id, rfl⟩
theorem emitE1 : Statement .emitE1 := ⟨rfl, id, rfl⟩
theorem emitE2 : Statement .emitE2 := ⟨rfl, id, rfl⟩
theorem emitE3 : Statement .emitE3 := ⟨rfl, id, rfl⟩
theorem emitD (v : Sextet) : Statement (.emitD v) := ⟨rfl, id, rfl⟩
theorem escd1 : Statement .escd1 := ⟨rfl, id, rfl⟩
theorem escd2 : Statement .escd2 := ⟨rfl, id, rfl⟩
theorem escd3 : Statement .escd3 := ⟨rfl, id, rfl⟩
theorem escdBad (d : CharCode) : Statement (.escdBad d) := ⟨rfl, id, rfl⟩
theorem clsTag (c : CharCode) : Statement (.clsTag c) := ⟨rfl, id, rfl⟩
theorem clsDirect (c : CharCode) : Statement (.clsDirect c) := ⟨rfl, id, rfl⟩
theorem clsInvalid (c : CharCode) : Statement (.clsInvalid c) := ⟨rfl, id, rfl⟩

end Sys2Proof.Laws.Expansion
end

