-- ==== Sys2Proof/Tests/Slice0.lean ====
section
/-! SUPPORT. Tests: the checks of WellFormed, a written-out word for every constructor, one small step for
each instruction with results taken from spec/, and a witness for every statement that has hypotheses. -/

namespace Sys2Proof.Tests

open Sys2Proof.Machine

/-! ### Helpers -/

/-- A quiescent machine configured with tag `t`, with `b` in its input buffer. -/
def ready (t : CharCode) (b : List (BitVec 8)) : State :=
  { commitTables t State.reset with inBuf := Mem.writeAll [] 0 b, inLen := b.length }

/-- A decode running on `ready t b`. -/
def decoding (t : CharCode) (b : List (BitVec 8)) : State := acceptDec (ready t b)

/-- An encode running on `ready t b`. -/
def encoding (t : CharCode) (b : List (BitVec 8)) : State := acceptEnc (ready t b)

/-- What `f` says of the next state; false at a stop. -/
def nextHas (r : Result) (f : State → Bool) : Bool :=
  match r with
  | .next t => f t
  | .fault _ => false
  | .refused _ => false

/-- The output of a quiescent state. -/
def output (s : State) : List (Option (BitVec 8)) := s.outBuf.items s.outLen

/-! ### WellFormed refuses an ill-formed term of each check -/

theorem test_wf_illegalOperand_low_zero : WellFormed (.illegalOperand .enc 0#10) = false := by decide
theorem test_wf_noDispatch_enc_full : WellFormed (.noDispatch .enc 3#3) = false := by decide
theorem test_wf_noDispatch_dec_full : WellFormed (.noDispatch .dec 4#3) = false := by decide
theorem test_wf_emitD_escape_value : WellFormed (.emitD 61#6) = false := by decide
theorem test_wf_escdBad_digit1 : WellFormed (.escdBad 0x31#8) = false := by decide
theorem test_wf_escdBad_digit2 : WellFormed (.escdBad 0x32#8) = false := by decide
theorem test_wf_escdBad_digit3 : WellFormed (.escdBad 0x33#8) = false := by decide
theorem test_selected_clsTag_not_tag :
    (Instr.clsTag 0x79#8).selectedBy 0x78#8 (buildDec (buildEnc 59)) = false := by decide
theorem test_selected_clsDirect_no_entry :
    (Instr.clsDirect 0x5F#8).selectedBy 0x78#8 (buildDec (buildEnc 59)) = false := by decide +kernel
theorem test_selected_clsInvalid_has_entry :
    (Instr.clsInvalid 0x47#8).selectedBy 0x78#8 (buildDec (buildEnc 59)) = false := by decide +kernel

/-! ### A written-out word of every row (spec/opcode_table.json, 30_encoding.md R52 to R56) -/

theorem test_decode_cfg : decodeCmd 0b000101111000#12 = .cfg 1#2 0x78#8 := by decide
theorem test_decode_cfg_tlen3 : decodeCmd 0b001111111111#12 = .cfg 3#2 0xFF#8 := by decide
theorem test_decode_enc : decodeCmd 0b010000000000#12 = .enc := by decide
theorem test_decode_dec : decodeCmd 0b100000000000#12 = .dec := by decide
theorem test_encode_cfgDefault : encode .cfgDefault = .cmd 0b000101111000#12 := by decide
theorem test_decode_illegalOp : decodeCmd 0b110000000000#12 = .illegalOp 0#10 := by decide
theorem test_decode_illegalOperand_enc :
    decodeCmd 0b010000000001#12 = .illegalOperand .enc 1#10 := by decide
theorem test_decode_illegalOperand_dec :
    decodeCmd 0b100001111000#12 = .illegalOperand .dec 0b0001111000#10 := by decide
theorem test_decode_pack3 : decodeGsel 0b00011#5 = .ok .pack3 := rfl
theorem test_decode_pack2 : decodeGsel 0b01010#5 = .ok .pack2 := rfl
theorem test_decode_pack1 : decodeGsel 0b01001#5 = .ok .pack1 := rfl
theorem test_decode_pack0 : decodeGsel 0b01000#5 = .ok .pack0 := rfl
theorem test_decode_unpack4 : decodeGsel 0b10100#5 = .ok .unpack4 := rfl
theorem test_decode_unpack3 : decodeGsel 0b11011#5 = .ok .unpack3 := rfl
theorem test_decode_unpack2 : decodeGsel 0b11010#5 = .ok .unpack2 := rfl
theorem test_decode_unpack1 : decodeGsel 0b11001#5 = .ok .unpack1 := rfl
theorem test_decode_unpack0 : decodeGsel 0b11000#5 = .ok .unpack0 := rfl
theorem test_decode_noDispatch_enc : decodeGsel 0b00010#5 = .ok (.noDispatch .enc 2#3) := rfl
theorem test_decode_noDispatch_dec : decodeGsel 0b10011#5 = .ok (.noDispatch .dec 3#3) := rfl
theorem test_decode_neverOccurs_enc : decodeGsel 0b01011#5 = .error (.neverOccurs 0b01011#5) := rfl
theorem test_decode_neverOccurs_dec : decodeGsel 0b11100#5 = .error (.neverOccurs 0b11100#5) := rfl
theorem test_decode_emitE1 : decodeSextet 0b111101#6 = .emitE1 := by decide
theorem test_decode_emitE2 : decodeSextet 0b111110#6 = .emitE2 := by decide
theorem test_decode_emitE3 : decodeSextet 0b111111#6 = .emitE3 := by decide
theorem test_decode_emitD : decodeSextet 0b111100#6 = .emitD 60#6 := by decide
theorem test_decode_escd1 : decodeEscDigit 0b00110001#8 = .escd1 := by decide
theorem test_decode_escd2 : decodeEscDigit 0b00110010#8 = .escd2 := by decide
theorem test_decode_escd3 : decodeEscDigit 0b00110011#8 = .escd3 := by decide
theorem test_decode_escdBad : decodeEscDigit 0b10110001#8 = .escdBad 0xB1#8 := by decide
/-- Under tag `x`: `x` is the tag (95_test_vectors.md 4.1). -/
theorem test_decode_clsTag :
    decodeClassify 0x78#8 (buildDec (buildEnc 59)) 0b01111000#8 = .clsTag 0x78#8 := by decide
/-- Under tag `x`: `G` is direct (95_test_vectors.md 4.1). -/
theorem test_decode_clsDirect :
    decodeClassify 0x78#8 (buildDec (buildEnc 59)) 0b01000111#8 = .clsDirect 0x47#8 := by decide +kernel
/-- Under tag `x`: `_` is invalid (95_test_vectors.md 4.1). -/
theorem test_decode_clsInvalid :
    decodeClassify 0x78#8 (buildDec (buildEnc 59)) 0b01011111#8 = .clsInvalid 0x5F#8 := by decide +kernel

/-! ### The table words the host asks about -/

theorem test_table_enc : decodeTableWord 16 0x400 = some .enc := by decide
theorem test_table_pack2 : decodeTableWord 8 0x0A = some .pack2 := by decide
theorem test_table_emitE3 : decodeTableWord 8 0x3F = some .emitE3 := by decide
theorem test_table_escd1 : decodeTableWord 8 0x31 = some .escd1 := by decide
/-- The word 0x178 placed after reset configures tag `x` (95_test_vectors.md 1.2). -/
theorem test_fetch_cfg :
    nextHas (step (State.reset.withFetchWord 16 0x178)) (fun t => t.cfgOk && t.tag == 0x78#8) = true := by
  decide
/-- A placed `ENC` is refused after reset: `NOT_CONFIGURED` (95_test_vectors.md 5.2, step 2). -/
theorem test_fetch_enc :
    nextHas (step (State.reset.withFetchWord 16 0x400)) (fun t => statusWord t == 0x05#5) = true := by
  decide
theorem test_fetch_pack3 :
    nextHas (step (State.reset.withFetchWord 8 0x03)) (fun t => t.wpos == 4 && t.gcnt == 0#3) = true := by
  decide +kernel
theorem test_fetch_unpack4 :
    nextHas (step (State.reset.withFetchWord 8 0x14)) (fun t => t.outBuf.items 3 == [some 0, some 0, some 0x3D]) = true := by
  decide +kernel
theorem test_fetch_unpack1 :
    nextHas (step (State.reset.withFetchWord 8 0x19)) (fun t => t.err == .danglingSymbol) = true := by
  decide
theorem test_fetch_emitE2 :
    nextHas (step (State.reset.withFetchWord 8 0x3E)) (fun t => t.outBuf.items 2 == [some 0, some 0x32]) = true := by
  decide +kernel

/-! ### One small step of each instruction; expected results from 95_test_vectors.md unless named -/

/-- 2.3: a boundary word, `z`; `ENC_LUT[60]` is `y` (40_table_builder.md 5). -/
theorem test_cfg_z : nextHas (exec (.cfg 1#2 0x7A#8) State.reset)
    (fun t => t.cfgOk && t.encLut[60] == 0x79#8 && t.err == .ok) = true := by decide +kernel
/-- 2.3: `0x17B` fails from reset with `STATUS = 0x01`. -/
theorem test_cfg_brace : nextHas (exec (.cfg 1#2 0x7B#8) State.reset)
    (fun t => statusWord t == 0x01#5) = true := by decide
/-- 5.1, step 1. -/
theorem test_cfgDefault : nextHas (exec .cfgDefault State.reset)
    (fun t => t.tag == 0x78#8 && statusWord t == 0x10#5) = true := by decide
/-- 5.3, step 7. -/
theorem test_illegalOp : nextHas (exec (.illegalOp 0#10) (ready 0x78#8 []))
    (fun t => statusWord t == 0x16#5) = true := by decide
/-- 5.3, step 8. -/
theorem test_illegalOperand : nextHas (exec (.illegalOperand .enc 1#10) (ready 0x78#8 []))
    (fun t => statusWord t == 0x16#5) = true := by decide
/-- 1.1: `"AB"` gives `GK2`. -/
theorem test_enc_AB : nextHas (exec .enc (ready 0x78#8 [0x41#8, 0x42#8]))
    (fun t => output t == [some 0x47#8, some 0x4B#8, some 0x32#8] && t.busy == false) = true := by
  decide +kernel
/-- 3.5: `[FF FF FF]` under tag `1` gives `13131313`. -/
theorem test_enc_escapes_tag1 : nextHas (exec .enc (ready 0x31#8 [0xFF#8, 0xFF#8, 0xFF#8]))
    (fun t => output t == [some 0x31#8, some 0x33#8, some 0x31#8, some 0x33#8,
      some 0x31#8, some 0x33#8, some 0x31#8, some 0x33#8]) = true := by decide +kernel
/-- 4.3: `GKz` is not canonical and gives `41 7C`. -/
theorem test_dec_GKz : nextHas (exec .dec (ready 0x78#8 [0x47#8, 0x4B#8, 0x7A#8]))
    (fun t => output t == [some 0x41#8, some 0x7C#8] && t.err == .ok) = true := by decide +kernel
/-- 4.4: `GK93x` fails with an invalid escape and no output. -/
theorem test_dec_bare_tag : nextHas (exec .dec (ready 0x78#8 [0x47#8, 0x4B#8, 0x39#8, 0x33#8, 0x78#8]))
    (fun t => t.err == .invalidEscape && t.outLen == 0 && t.busy == false) = true := by decide +kernel
/-- 3.1: `PACK3(AA, 55, AA)` is 42, 37, 22, 42. -/
theorem test_pack3_bits : pack3 0xAA#8 0x55#8 0xAA#8 = [42#6, 37#6, 22#6, 42#6] := by decide
/-- 3.1: `PACK3(FB, FF, BE)` gives `x2x3x2x2`. -/
theorem test_pack3_text :
    nextHas (exec .pack3 { encoding 0x78#8 [] with eb := #v[0xFB#8, 0xFF#8, 0xBE#8], gcnt := 3#3 })
      (fun t => t.outBuf.items 8 == [some 0x78#8, some 0x32#8, some 0x78#8, some 0x33#8,
        some 0x78#8, some 0x32#8, some 0x78#8, some 0x32#8] && t.gcnt == 0#3) = true := by decide +kernel
/-- 3.1: `PACK2(03, DF)` gives `0x1F`. -/
theorem test_pack2_text :
    nextHas (exec .pack2 { encoding 0x78#8 [] with eb := #v[0x03#8, 0xDF#8, 0#8], gcnt := 2#3 })
      (fun t => output t == [some 0x30#8, some 0x78#8, some 0x31#8, some 0x46#8]) = true := by decide +kernel
/-- 3.1: `PACK1(F3)` gives `z3`. -/
theorem test_pack1_text :
    nextHas (exec .pack1 { encoding 0x78#8 [] with eb := #v[0xF3#8, 0#8, 0#8], gcnt := 1#3 })
      (fun t => output t == [some 0x7A#8, some 0x33#8]) = true := by decide +kernel
/-- 3.3: the empty input gives the empty output. -/
theorem test_pack0 : nextHas (exec .pack0 (encoding 0x78#8 []))
    (fun t => t.outLen == 0 && t.busy == false) = true := by decide
/-- 4.2: `UNPACK4(1, 2, 3, 4)` is `04 20 C4`. -/
theorem test_unpack4_bits : unpack4 1#6 2#6 3#6 4#6 = [0x04#8, 0x20#8, 0xC4#8] := by decide
theorem test_unpack4_group :
    nextHas (exec .unpack4 { decoding 0x78#8 [] with ds := #v[16#6, 20#6, 9#6, 3#6], gcnt := 4#3 })
      (fun t => t.outBuf.items 3 == [some 0x41#8, some 0x42#8, some 0x43#8] && t.gcnt == 0#3 && t.busy)
      = true := by decide
/-- 4.2: `UNPACK3(0, 3, 48)` is `00 30`: OR, not addition. -/
theorem test_unpack3_overlap :
    nextHas (exec .unpack3 { decoding 0x78#8 [] with ds := #v[0#6, 3#6, 48#6, 0#6], gcnt := 3#3 })
      (fun t => output t == [some 0x00#8, some 0x30#8]) = true := by decide
/-- 4.2: `UNPACK2(16, 16)` is `50`. -/
theorem test_unpack2_overlap :
    nextHas (exec .unpack2 { decoding 0x78#8 [] with ds := #v[16#6, 16#6, 0#6, 0#6], gcnt := 2#3 })
      (fun t => output t == [some 0x50#8]) = true := by decide
/-- 4.2: `UNPACK1` always raises. -/
theorem test_unpack1 : nextHas (exec .unpack1 { decoding 0x78#8 [] with gcnt := 1#3, wpos := 3 })
    (fun t => t.err == .danglingSymbol && t.outLen == 0 && t.busy == false) = true := by decide
theorem test_unpack0 : nextHas (exec .unpack0 { decoding 0x78#8 [] with wpos := 3 })
    (fun t => t.outLen == 3 && t.busy == false && t.err == .ok) = true := by decide
theorem test_noDispatch : nextHas (exec (.noDispatch .enc 2#3) (encoding 0x78#8 [0x41#8]))
    (fun t => t == encoding 0x78#8 [0x41#8]) = true := by decide +kernel
/-- 3.2: 58 under tag `0` is `x`. -/
theorem test_emitD : nextHas (exec (.emitD 58#6) (encoding 0x30#8 []))
    (fun t => t.outBuf.items 1 == [some 0x78#8] && t.wpos == 1) = true := by decide +kernel
/-- 3.2: 61 under tag `1` is `11`. -/
theorem test_emitE1 : nextHas (exec .emitE1 (encoding 0x31#8 []))
    (fun t => t.outBuf.items 2 == [some 0x31#8, some 0x31#8] && t.wpos == 2) = true := by decide
theorem test_emitE2 : nextHas (exec .emitE2 (encoding 0x7A#8 []))
    (fun t => t.outBuf.items 2 == [some 0x7A#8, some 0x32#8]) = true := by decide
theorem test_emitE3 : nextHas (exec .emitE3 (encoding 0x41#8 []))
    (fun t => t.outBuf.items 2 == [some 0x41#8, some 0x33#8]) = true := by decide
theorem test_escd1 : nextHas (exec .escd1 { decoding 0x78#8 [] with escPend := true, gcnt := 1#3 })
    (fun t => t.ds[1] == 61#6 && t.gcnt == 2#3 && t.escPend == false) = true := by decide
theorem test_escd2 : nextHas (exec .escd2 { decoding 0x78#8 [] with escPend := true })
    (fun t => t.ds[0] == 62#6 && t.gcnt == 1#3) = true := by decide
theorem test_escd3 : nextHas (exec .escd3 { decoding 0x78#8 [] with escPend := true, gcnt := 3#3 })
    (fun t => t.ds[3] == 63#6 && t.gcnt == 4#3) = true := by decide
theorem test_escdBad : nextHas (exec (.escdBad 0x34#8) { decoding 0x78#8 [] with escPend := true })
    (fun t => statusWord t == 0x13#5) = true := by decide
theorem test_clsTag : nextHas (exec (.clsTag 0x78#8) (decoding 0x78#8 []))
    (fun t => t.escPend && t.gcnt == 0#3) = true := by decide
/-- 4.1: `y` under tag `x` is 59. -/
theorem test_clsDirect : nextHas (exec (.clsDirect 0x79#8) (decoding 0x78#8 []))
    (fun t => t.ds[0] == 59#6 && t.gcnt == 1#3) = true := by decide +kernel
theorem test_clsInvalid : nextHas (exec (.clsInvalid 0x5F#8) (decoding 0x78#8 []))
    (fun t => statusWord t == 0x12#5) = true := by decide
/-- 3.7, micro-step 3: the third octet is taken with `EOI = 0`, though it is the last of the input. -/
theorem test_full_group_at_end_of_input :
    nextHas (step { encoding 0x78#8 [0xFF#8, 0xFF#8, 0xFF#8] with
        eb := #v[0xFF#8, 0xFF#8, 0#8], pos := 2, gcnt := 2#3 })
      (fun t => t.busy && t.wpos == 8 && t.gcnt == 0#3) = true := by decide +kernel

/-! ### Witnesses: concrete states and operands that meet each statement's hypotheses together -/

theorem witness_WellFormedInstructionsDecodeBack :
    WellFormed (.illegalOperand .dec 0x3FF#10) = true ∧ WellFormed (.noDispatch .dec 3#3) = true ∧
      WellFormed (.emitD 60#6) = true ∧ WellFormed (.escdBad 0x34#8) = true ∧
      (Instr.clsTag 0x78#8).selectedBy 0x78#8 (buildDec (buildEnc 59)) = true ∧
      (Instr.clsDirect 0x7A#8).selectedBy 0x78#8 (buildDec (buildEnc 59)) = true ∧
      (Instr.clsInvalid 0x7B#8).selectedBy 0x78#8 (buildDec (buildEnc 59)) = true := by decide +kernel

theorem witness_CommandWordMap :
    (ready 0x78#8 []).busy = false ∧ (0xC00#12).extractLsb' 10 2 = 3#2 ∧
      (0x401#12).extractLsb' 10 2 ≠ 0#2 ∧ (0x401#12).extractLsb' 0 10 ≠ 0#10 ∧
      (0x3FF#12).extractLsb' 10 2 = 0#2 ∧ (0x400#12).extractLsb' 10 2 = 1#2 ∧
      (0x800#12).extractLsb' 10 2 = 2#2 ∧ (0x800#12).extractLsb' 0 10 = 0#10 := by decide

/-- The first and the last letter of the alphabet, the default tag, and the code after the alphabet. -/
theorem witness_valid_tag :
    isAlnum 0x30#8 = true ∧ isAlnum 0x7A#8 = true ∧ isAlnum 0x78#8 = true ∧ isAlnum 0x7B#8 = false := by decide

theorem witness_StepRunsThePresentedCommand :
    { ready 0x78#8 [] with host := [.call 0x178#12] }.host = .call 0x178#12 :: [] ∧
      WellFormed .cfgDefault = true ∧ encode .cfgDefault = .cmd 0x178#12 := by decide

/-- The four clauses: load, flush, character (with and without a raise), end. -/
theorem witness_StepRunsTheSelectedMicroOperation :
    (∃ s : State, s.host = [] ∧ s.busy = true ∧ s.mode = .enc ∧ s.pos < s.inLen ∧
      decodeGsel (gsel (loadOctet s) false) = .ok .pack3) ∧
    (∃ s : State, s.host = [] ∧ s.busy = true ∧ s.mode = .enc ∧ s.inLen ≤ s.pos ∧
      decodeGsel (gsel s true) = .ok .pack0) ∧
    (∃ s t : State, s.host = [] ∧ s.busy = true ∧ s.mode = .dec ∧ s.pos < s.inLen ∧
      exec (selectChar (coreReadIn s s.pos) s) { s with pos := s.pos + 1 } = .next t ∧ t.busy = true ∧
      decodeGsel (gsel t false) = .ok .unpack4) ∧
    (∃ s t : State, s.host = [] ∧ s.busy = true ∧ s.mode = .dec ∧ s.pos < s.inLen ∧
      exec (selectChar (coreReadIn s s.pos) s) { s with pos := s.pos + 1 } = .next t ∧ t.busy = false) ∧
    (∃ s : State, s.host = [] ∧ s.busy = true ∧ s.mode = .dec ∧ s.inLen ≤ s.pos ∧ s.escPend = false ∧
      decodeGsel (gsel s true) = .ok .unpack3) :=
  ⟨⟨{ encoding 0x78#8 [0x41#8] with gcnt := 2#3 }, rfl, rfl, rfl, by decide, rfl⟩,
    ⟨encoding 0x78#8 [], rfl, rfl, rfl, by decide, rfl⟩,
    ⟨{ decoding 0x78#8 [0x31#8] with escPend := true, gcnt := 3#3 },
      resolveEscape 61#6 { decoding 0x78#8 [0x31#8] with escPend := true, gcnt := 3#3, pos := 1 },
      rfl, rfl, rfl, by decide, rfl, rfl, rfl⟩,
    ⟨{ decoding 0x78#8 [0x34#8] with escPend := true },
      abort .invalidEscape { decoding 0x78#8 [0x34#8] with escPend := true, pos := 1 },
      rfl, rfl, rfl, by decide, rfl, rfl⟩,
    ⟨{ decoding 0x78#8 [] with gcnt := 3#3 }, rfl, rfl, rfl, by decide, rfl, rfl⟩⟩

theorem witness_idle_block : (ready 0x78#8 []).busy = false ∧ State.reset.busy = false := by decide

theorem witness_CfgBuildsTheTables : State.reset.busy = false ∧ isAlnum 0x30#8 = true := by decide

theorem witness_FailedCfgChangesOnlyErr :
    State.reset.busy = false ∧ ¬(2#2 = 1#2 ∧ isAlnum 0x78#8 = true) ∧
      ¬(1#2 = 1#2 ∧ isAlnum 0x2F#8 = true) := by decide

theorem witness_CfgDependsOnItsOperandsOnly :
    ∃ t t' : State, State.reset.busy = false ∧ (ready 0x31#8 [1#8]).busy = false ∧ 1#2 = 1#2 ∧
      isAlnum 0x78#8 = true ∧ exec (.cfg 1#2 0x78#8) State.reset = .next t ∧
      exec (.cfg 1#2 0x78#8) (ready 0x31#8 [1#8]) = .next t' :=
  ⟨commitTables 0x78#8 State.reset, commitTables 0x78#8 (ready 0x31#8 [1#8]),
    rfl, rfl, rfl, by decide, rfl, rfl⟩

theorem witness_TablesOk : (ready 0x78#8 []).cfgOk = true ∧ TablesOk (ready 0x78#8 []) :=
  ⟨rfl, fun _ => ⟨by decide, rfl, rfl⟩⟩

theorem witness_AlphaIndexInvertsAlpha :
    0 < 62 ∧ 61 < 62 ∧ isAlnum 0x39#8 = true ∧ isAlnum 0x41#8 = true ∧ isAlnum 0x7A#8 = true := by decide

theorem witness_table_indices : 0 ≤ 61 ∧ 61 ≤ 61 ∧ (60 : Nat) < 61 := by decide

/-- A finite `MAX_OUT` with exactly the room an escape takes, and one with the room a direct symbol takes. -/
theorem witness_EmitWritesTheSymbol :
    outRoom { maxIn := some 0, maxOut := some 2, lutBase := 0 } (0 + 2) = true ∧
      (60#6).toNat < 61 ∧ outRoom { maxIn := some 0, maxOut := some 1, lutBase := 0 } (0 + 1) = true ∧
      outRoom { maxIn := some 0, maxOut := some 2, lutBase := 0 }
        (0 + (encTable 0x78#8 (buildEnc 59) 63#6).chars.length) = true := by decide +kernel

/-- The longest text of each group (41_encode.md R86) and a finite `MAX_OUT` with exactly its room. -/
theorem witness_PackDispatchesEmitTheirSextets :
    outRoom { maxIn := some 3, maxOut := some 8, lutBase := 0 }
        (0 + (textOf 0x78#8 (buildEnc 59) (pack3 0xFF#8 0xFF#8 0xFF#8)).length) = true ∧
      outRoom { maxIn := some 2, maxOut := some 5, lutBase := 0 }
        (0 + (textOf 0x78#8 (buildEnc 59) (pack2 0xFF#8 0xFF#8)).length) = true ∧
      outRoom { maxIn := some 1, maxOut := some 3, lutBase := 0 }
        (0 + (textOf 0x78#8 (buildEnc 59) (pack1 0xFF#8)).length) = true := by
  decide

theorem witness_UnpackDispatchesWriteTheirOctets :
    outRoom { maxIn := some 0, maxOut := some 3, lutBase := 0 } (0 + 3) = true ∧
      outRoom { maxIn := some 0, maxOut := some 2, lutBase := 0 } (0 + 2) = true ∧
      outRoom { maxIn := some 0, maxOut := some 1, lutBase := 0 } (0 + 1) = true := by decide

theorem witness_CharacterSelectionsAct :
    (decoding 0x78#8 []).gcnt.toNat < 4 ∧ (decoding 0x78#8 []).decLut[(0x7A#8).toNat] ≠ 0xFF#8 := by
  decide +kernel

/-- A form that writes (an escape at `WPOS = 0`) and one that does not, each with its next state. -/
theorem witness_StoringFormsChangeOnlyTheirItems :
    itemsWritten .emitE3 (encoding 0x78#8 []) = some [0x78#8, 0x33#8] ∧
      nextHas (exec .emitE3 (encoding 0x78#8 [])) (fun t => t.wpos == 2) = true ∧
      itemsWritten .pack0 (encoding 0x78#8 []) = some [] ∧
      exec .pack0 (encoding 0x78#8 []) = .next (complete (encoding 0x78#8 [])) :=
  ⟨rfl, by decide +kernel, rfl, rfl⟩

theorem witness_AcceptanceOfEncAndDec :
    (ready 0x78#8 [0x41#8]).busy = false ∧ (ready 0x78#8 [0x41#8]).cfgOk = true ∧
      { ready 0x78#8 [0x41#8] with host := [.issue 0x400#12] }.host = .issue 0x400#12 :: [] ∧
      { ready 0x78#8 [0x41#8] with host := [.issue 0x800#12] }.host = .issue 0x800#12 :: [] :=
  ⟨rfl, rfl, rfl, rfl⟩

theorem witness_EncodeLoadMicroStep :
    (encoding 0x78#8 [0x41#8]).host = [] ∧ (encoding 0x78#8 [0x41#8]).busy = true ∧
      (encoding 0x78#8 [0x41#8]).mode = .enc ∧ (encoding 0x78#8 [0x41#8]).pos < (encoding 0x78#8 [0x41#8]).inLen ∧
      (encoding 0x78#8 [0x41#8]).gcnt.toNat < 2 ∧
      { encoding 0x78#8 [0x41#8] with gcnt := 2#3 }.gcnt = 2#3 ∧ outRoom Params.standard 8 = true := by decide

theorem witness_EncodeFlushMicroStep :
    (encoding 0x78#8 []).host = [] ∧ (encoding 0x78#8 []).busy = true ∧ (encoding 0x78#8 []).mode = .enc ∧
      (encoding 0x78#8 []).pos = (encoding 0x78#8 []).inLen ∧ (encoding 0x78#8 []).gcnt = 0#3 ∧
      { encoding 0x78#8 [] with gcnt := 1#3 }.gcnt = 1#3 ∧
      { encoding 0x78#8 [] with gcnt := 2#3 }.gcnt = 2#3 ∧ outRoom Params.standard 5 = true := by decide

/-- The input `x1G_` under tag `x` gives, character by character, the tag, a digit, a direct symbol and an
invalid character; the group may be full or not. -/
theorem witness_DecodeCharacterMicroStep :
    let s := decoding 0x78#8 [0x78#8, 0x31#8, 0x47#8, 0x5F#8]
    s.host = [] ∧ s.busy = true ∧ s.mode = .dec ∧ s.inLen = 4 ∧ s.gcnt.toNat < 3 ∧ s.escPend = false ∧
      coreReadIn s 0 = s.tag ∧ coreReadIn s 1 = 0x31#8 ∧
      s.decLut[(coreReadIn s 2).toNat]'(coreReadIn s 2).isLt ≠ 0xFF#8 ∧
      s.decLut[(coreReadIn s 3).toNat]'(coreReadIn s 3).isLt = 0xFF#8 ∧
      outRoom s.params (s.wpos + 3) = true := by decide +kernel

theorem witness_DecodeEndMicroStep :
    (decoding 0x78#8 []).host = [] ∧ (decoding 0x78#8 []).busy = true ∧ (decoding 0x78#8 []).mode = .dec ∧
      (decoding 0x78#8 []).pos = (decoding 0x78#8 []).inLen ∧ (decoding 0x78#8 []).escPend = false ∧
      (decoding 0x78#8 []).gcnt = 0#3 ∧ { decoding 0x78#8 [] with gcnt := 3#3 }.gcnt = 3#3 ∧
      { decoding 0x78#8 [] with gcnt := 2#3 }.gcnt = 2#3 ∧ { decoding 0x78#8 [] with gcnt := 1#3 }.gcnt = 1#3 ∧
      { decoding 0x78#8 [] with escPend := true }.escPend = true ∧
      outRoom Params.standard 2 = true := by decide

theorem witness_NotConfiguredRefusal : State.reset.busy = false ∧ State.reset.cfgOk = false := by decide

theorem witness_CommandsWhileBusyChangeNothing :
    { encoding 0x78#8 [] with host := [.call 0x800#12] }.busy = true ∧
      { encoding 0x78#8 [] with host := [.call 0x800#12] }.host = .call 0x800#12 :: [] ∧
      { encoding 0x78#8 [] with host := [.issue 0x400#12] }.host = .issue 0x400#12 :: [] := by decide

theorem witness_EncComputesEncode :
    (ready 0x78#8 [0x41#8]).busy = false ∧ (ready 0x78#8 [0x41#8]).cfgOk = true ∧
      CapacityOk (ready 0x78#8 [0x41#8]) := ⟨rfl, rfl, rfl, rfl⟩

/-- A text that decodes (`G1`) and one that does not (`_`). -/
theorem witness_DecComputesDecode :
    CapacityOk (ready 0x78#8 [0x47#8, 0x31#8]) ∧
      decodeText 0x78#8 (buildDec (buildEnc 59)) (inputItems (ready 0x78#8 [0x47#8, 0x31#8])) = .ok [0x41#8] ∧
      CapacityOk (ready 0x78#8 [0x5F#8]) ∧
      decodeText 0x78#8 (buildDec (buildEnc 59)) (inputItems (ready 0x78#8 [0x5F#8]))
        = .error .unrecognizedCharacter :=
  ⟨⟨rfl, rfl⟩, by rfl, ⟨rfl, rfl⟩, by rfl⟩

/-- A failing `DEC` (an illegal character) and a failing `CFG`, each with its next state. -/
theorem witness_FailedCommandsShowNothing :
    nextHas (exec .dec (ready 0x78#8 [0x5F#8])) (fun t => t.err != .ok) = true ∧
      nextHas (exec (.cfg 0#2 0x78#8) (ready 0x78#8 [])) (fun t => t.err != .ok) = true := by decide +kernel

theorem witness_OnlyCfgChangesTheConfiguration :
    exec .pack0 (encoding 0x78#8 []) = .next (complete (encoding 0x78#8 [])) ∧
      (encoding 0x78#8 []).cfgOk = true ∧ ∀ tlen c, Instr.pack0.expand ≠ .cfg tlen c :=
  ⟨rfl, rfl, fun _ _ h => by cases h⟩

/-- A good state in which an encode is running on one octet. -/
theorem witness_inv_running :
    Inv (encoding 0x78#8 [0x41#8]) ∧ (encoding 0x78#8 [0x41#8]).busy = true ∧
      (encoding 0x78#8 [0x41#8]).host = [] where
  left :=
    { inCanonical := by decide
      outCanonical := List.Pairwise.nil
      capacity := ⟨rfl, rfl⟩
      tables := fun _ => ⟨by decide, rfl, rfl⟩
      run := fun _ => ⟨rfl, rfl, rfl, by decide, fun i h => absurd h (Nat.not_lt_zero i), rfl, by decide⟩
      out := fun i h => absurd h (Nat.not_lt_zero i) }
  right := ⟨rfl, rfl⟩

/-- A good running state at which the host reads `OUT`, then `STATUS`. -/
theorem witness_AccessesWhileBusyHaveNoEffect :
    Inv { encoding 0x78#8 [0x41#8] with host := [.readOut 0, .readStatus] } ∧
      (HostAct.readOut 0).isBufferAccess = true :=
  ⟨{ inCanonical := witness_inv_running.1.inCanonical
     outCanonical := witness_inv_running.1.outCanonical
     capacity := witness_inv_running.1.capacity
     tables := witness_inv_running.1.tables
     run := witness_inv_running.1.run
     out := witness_inv_running.1.out }, rfl⟩

/-- Two states that differ in hidden state only: the per-call registers and items above the lengths. -/
theorem witness_HiddenStateNeverShows :
    SameVisible (ready 0x78#8 [0x41#8])
        { ready 0x78#8 [0x41#8] with
          pos := 7, wpos := 9, gcnt := 2#3, escPend := true, mode := .dec, outBuf := [(0, 0xAA#8)] } ∧
      nextHas (exec (decodeCmd 0x400#12) (ready 0x78#8 [0x41#8])) (fun _ => true) = true where
  left :=
    { idle := ⟨rfl, rfl⟩, params := rfl, cfgOk := rfl, tables := fun _ => ⟨rfl, rfl, rfl⟩
      err := rfl, inLen := rfl, input := fun _ _ => rfl, outLen := rfl
      output := fun i h => absurd h (Nat.not_lt_zero i) }
  right := by decide +kernel

/-- `GG` under tag `x` has excess tail bits, `G1` has none; neither dangles (42_decode.md R105). -/
theorem witness_ExcessTailsDecodeThoughNotEncoded :
    symbols 0x78#8 (buildDec (buildEnc 59)) [0x47#8, 0x47#8] = .ok [16#6, 16#6] ∧
      excessTail [16#6, 16#6] = true ∧
      symbols 0x78#8 (buildDec (buildEnc 59)) [0x47#8, 0x31#8] = .ok [16#6, 1#6] ∧
      excessTail [16#6, 1#6] = false := ⟨by rfl, by decide, by rfl, by decide⟩

/-- `G` dangles; `G_`, `Gx4` and `Gx` have an earlier defect (42_decode.md R108). -/
theorem witness_FirstDefectIsReported :
    symbols 0x78#8 (buildDec (buildEnc 59)) [0x47#8] = .ok [16#6] ∧ isAlnum 0x5F#8 = false ∧
      decodeFor 0x78#8 [0x47#8] = .error .danglingSymbol := ⟨by rfl, by decide, by rfl⟩

theorem witness_DecodedLength :
    isAlnum 0x78#8 = true ∧ decodeFor 0x78#8 [0x78#8, 0x33#8, 0x33#8] = .ok [0xFF#8] := ⟨by decide, by rfl⟩

theorem witness_HostReadsWithinBounds :
    (ready 0x78#8 [0x41#8]).busy = false ∧ 0 < (ready 0x78#8 [0x41#8]).inLen ∧
      (ready 0x78#8 [0x41#8]).inBuf.read 0 = some 0x41#8 ∧ (ready 0x78#8 [0x41#8]).inLen ≤ 1 ∧
      { ready 0x78#8 [] with outBuf := [(0, 0x47#8)], outLen := 1 }.outBuf.read 0 = some 0x47#8 ∧
      (ready 0x78#8 [0x41#8]).outLen ≤ 0 ∧
      { ready 0x78#8 [] with host := [.readIn 0] }.host = .readIn 0 :: [] := by decide

theorem witness_LutSpaceMap :
    (ready 0x78#8 []).busy = false ∧ (ready 0x78#8 []).cfgOk = true ∧ State.reset.cfgOk = false ∧
      (0 : Nat) + 318 ≤ 318 ∧ { ready 0x78#8 [] with host := [.readLut 317] }.host = .readLut 317 :: [] ∧
      { ready 0x78#8 [] with host := [.writeLut 0 5#8] }.host = .writeLut 0 5#8 :: [] := by
  decide

/-- The last index and the first absent one of a finite `IN`, and a length it cannot hold. -/
theorem witness_HostWritesOnlyTheInput :
    inHolds { maxIn := some 2, maxOut := none, lutBase := 0 } 1 = true ∧
      inHolds { maxIn := some 2, maxOut := none, lutBase := 0 } 2 = false ∧
      inLenHolds { maxIn := some 2, maxOut := none, lutBase := 0 } 3 = false ∧
      (ready 0x78#8 []).busy = false ∧
      { ready 0x78#8 [] with host := [.writeIn 1 5#8] }.host = .writeIn 1 5#8 :: [] ∧
      { ready 0x78#8 [] with host := [.writeOut 0 5#8] }.host = .writeOut 0 5#8 :: [] := by decide

/-- Reset in the middle of an encode. -/
theorem witness_ResetLeavesAnIdleUnconfiguredBlock :
    { encoding 0x78#8 [0x41#8] with host := [.reset] }.host = .reset :: [] := rfl

theorem witness_AssembledInputLineFillsTheBuffer :
    State.reset.busy = false ∧ State.reset.params.maxIn = none := by decide

/-- The tight capacities for a 2-item input (41_encode.md R86: `EncMaxLen(2) = 5`). -/
theorem witness_InvariantHoldsAtReset :
    capacityLawful { maxIn := some 2, maxOut := some 5, lutBase := 7 } = true ∧
      capacityLawful { maxIn := some 2, maxOut := some 4, lutBase := 7 } = false := by decide

theorem witness_StepKeepsTheInvariant :
    Inv (encoding 0x78#8 [0x41#8]) ∧ nextHas (step (encoding 0x78#8 [0x41#8])) (fun t => t.busy) = true :=
  ⟨witness_inv_running.1, by decide +kernel⟩

end Sys2Proof.Tests
end

/-! ## Shared facts: the dispatchers' selections and the escape mux -/

namespace Sys2Proof.Machine

/-- What a command word decodes to: a command of R52 or an illegal word (R53), never a micro-operation. -/
theorem decodeCmd_cases (w : BitVec 12) :
    (∃ tlen tchar, decodeCmd w = .cfg tlen tchar) ∨ decodeCmd w = .enc ∨ decodeCmd w = .dec ∨
      (∃ low, decodeCmd w = .illegalOp low) ∨ ∃ m low, decodeCmd w = .illegalOperand m low := by
  unfold decodeCmd
  split
  · exact .inl ⟨_, _, rfl⟩
  split
  · exact .inr (.inl rfl)
  split
  · exact .inr (.inr (.inl rfl))
  split
  · exact .inr (.inr (.inr (.inl ⟨_, rfl⟩)))
  split
  · exact .inr (.inr (.inr (.inr ⟨_, _, rfl⟩)))
  · exact .inr (.inr (.inr (.inr ⟨_, _, rfl⟩)))

/-- What the group dispatcher selects at the group count `g`: before the end of the input a full group or
nothing, at its end a tail (R54). -/
inductive GroupSelects : Mode → (eoi : Bool) → (g : BitVec 3) → Instr → Prop where
  | noDispatch (m : Mode) (g : BitVec 3) : GroupSelects m false g (.noDispatch m g)
  | pack3 : GroupSelects .enc false 3#3 .pack3
  | pack2 : GroupSelects .enc true 2#3 .pack2
  | pack1 : GroupSelects .enc true 1#3 .pack1
  | pack0 : GroupSelects .enc true 0#3 .pack0
  | unpack4 : GroupSelects .dec false 4#3 .unpack4
  | unpack3 : GroupSelects .dec true 3#3 .unpack3
  | unpack2 : GroupSelects .dec true 2#3 .unpack2
  | unpack1 : GroupSelects .dec true 1#3 .unpack1
  | unpack0 : GroupSelects .dec true 0#3 .unpack0

theorem groupSelects_of_decodeGsel {w : BitVec 5} {i : Instr} (h : decodeGsel w = .ok i) :
    GroupSelects (Mode.ofBit (w.extractLsb' 4 1)) (w.extractLsb' 3 1 = 1#1) (w.extractLsb' 0 3) i := by
  unfold decodeGsel at h
  iterate 9
    obtain ⟨rfl, h⟩ | ⟨-, h⟩ := ite_eq_iff.mp h
    · cases h; constructor
  obtain ⟨⟨heoi, -⟩, h⟩ | ⟨-, h⟩ := ite_eq_iff.mp h
  · cases h
    rw [heoi]
    exact .noDispatch _ _
  · cases h

/-- `MODE`, `EOI` and `GCNT` are read back from the selector (R54). -/
theorem gsel_fields (s : State) (eoi : Bool) :
    Mode.ofBit ((gsel s eoi).extractLsb' 4 1) = s.mode ∧
      decide ((gsel s eoi).extractLsb' 3 1 = 1#1) = eoi ∧ (gsel s eoi).extractLsb' 0 3 = s.gcnt := by
  unfold gsel
  generalize s.mode = m, s.gcnt = g
  revert g
  cases m <;> cases eoi <;> decide

theorem groupSelects_of_gsel {s : State} {eoi : Bool} {i : Instr}
    (h : decodeGsel (gsel s eoi) = .ok i) : GroupSelects s.mode eoi s.gcnt i := by
  obtain ⟨hm, he, hc⟩ := gsel_fields s eoi
  simpa only [hm, he, hc] using groupSelects_of_decodeGsel h

theorem putItems_append (l k : List (BitVec 8)) (s : State) :
    putItems (l ++ k) s = seq (putItems l s) (putItems k) := by
  induction l generalizing s with
  | nil => rfl
  | cons c l ih =>
    have hk : putItems (l ++ k) = fun u => seq (putItems l u) (putItems k) := funext ih
    simp only [List.cons_append, putItems, hk, seq_assoc]

/-- Emitting sextets is writing their text, room or no room. -/
theorem emitAll_eq_putItems (vs : List Sextet) (s : State) :
    emitAll vs s = putItems (textOf s.tag s.encLut vs) s := by
  induction vs generalizing s with
  | nil => rfl
  | cons v vs ih =>
    rw [textOf_cons, putItems_append, emitAll, emit_eq_putItems]
    cases h : putItems (encTable s.tag s.encLut v).chars s with
    | next u =>
      obtain ⟨rfl, -⟩ := putItems_eq_next h
      exact ih _
    | fault f => rfl
    | refused q => rfl

theorem runCore_idle {s : State} (h : s.busy = false) (n : Nat) : runCore n s = .next s := by
  cases n <;> simp [runCore, h]

/-! ## The pending host actions play no part in what the core does -/

/-- `s` with `h` as the host's actions not yet made. -/
def State.withHost (h : List HostAct) (s : State) : State := { s with host := h }

@[simp] theorem withHost_busy (h : List HostAct) (s : State) : (s.withHost h).busy = s.busy := rfl
@[simp] theorem withHost_cfgOk (h : List HostAct) (s : State) : (s.withHost h).cfgOk = s.cfgOk := rfl
@[simp] theorem withHost_inLen (h : List HostAct) (s : State) : (s.withHost h).inLen = s.inLen := rfl
@[simp] theorem withHost_pos (h : List HostAct) (s : State) : (s.withHost h).pos = s.pos := rfl
@[simp] theorem withHost_mode (h : List HostAct) (s : State) : (s.withHost h).mode = s.mode := rfl
@[simp] theorem withHost_escPend (h : List HostAct) (s : State) :
    (s.withHost h).escPend = s.escPend := rfl

/-- `op` neither reads nor writes the list of the host's actions not yet made. -/
def HostBlind (op : State → Result) : Prop :=
  ∀ (s : State) (h : List HostAct), op (s.withHost h) = seq (op s) fun t => .next (t.withHost h)

/-- A change of `host` moves past a host-blind operation that follows in a sequence. -/
theorem HostBlind.seq_swap {k : State → Result} (hk : HostBlind k) (r : Result) (h : List HostAct) :
    seq (seq r fun t => .next (t.withHost h)) k = seq (seq r k) fun t => .next (t.withHost h) := by
  rw [seq_assoc, seq_assoc]
  exact congrArg (seq r) (funext fun u => hk u h)

/-- After a result that differs by a change of `host`, a host-blind operation answers differing by it too. -/
theorem HostBlind.after {k : State → Result} (hk : HostBlind k) {r r' : Result} {h : List HostAct}
    (hr : r' = seq r fun t => .next (t.withHost h)) :
    seq r' k = seq (seq r k) fun t => .next (t.withHost h) := by
  rw [hr, hk.seq_swap]

theorem putItem_hostBlind (c : BitVec 8) : HostBlind (putItem c) := by
  intro s h
  have hr : outHolds (s.withHost h).params (s.withHost h).wpos = outHolds s.params s.wpos := rfl
  unfold putItem
  rw [hr]
  split <;> rfl

theorem putItems_hostBlind (l : List (BitVec 8)) : HostBlind (putItems l) := by
  induction l with
  | nil => exact fun _ _ => rfl
  | cons c l ih =>
    intro s h
    rw [putItems, putItem_hostBlind, ih.seq_swap, putItems]

theorem emitAll_hostBlind (vs : List Sextet) : HostBlind (emitAll vs) := by
  intro s h
  rw [emitAll_eq_putItems, emitAll_eq_putItems]
  exact putItems_hostBlind _ s h

theorem execClsDirect_hostBlind (c : CharCode) : HostBlind (execClsDirect c) := by
  intro s h
  have hd : decLutAt (s.withHost h) c = decLutAt s c := rfl
  unfold execClsDirect
  rw [hd]
  split <;> rfl

theorem execEmitD_hostBlind (v : Sextet) : HostBlind (execEmitD v) := by
  intro s h
  have he : (s.withHost h).encLut = s.encLut := rfl
  unfold execEmitD
  rw [he]
  cases s.encLut[v.toNat]? with
  | some c => exact putItem_hostBlind c s h
  | none => rfl

/-- A micro-operation that stores no item is host-blind by its definition; one that stores is so through its
items and then through the registers it writes after them. -/
theorem runSelected_hostBlind (i : Instr) : HostBlind (runSelected i) := by
  have emptied : HostBlind fun t => .next { t with gcnt := 0#3 } := fun _ _ => rfl
  have completed : HostBlind fun t => .next (complete t) := fun _ _ => rfl
  intro s h
  cases i with
  | pack3 => exact emptied.after (emitAll_hostBlind _ s h)
  | pack2 => exact completed.after (emitAll_hostBlind _ s h)
  | pack1 => exact completed.after (emitAll_hostBlind _ s h)
  | unpack4 => exact emptied.after (putItems_hostBlind _ s h)
  | unpack3 => exact completed.after (putItems_hostBlind _ s h)
  | unpack2 => exact completed.after (putItems_hostBlind _ s h)
  | emitE1 => exact putItems_hostBlind _ s h
  | emitE2 => exact putItems_hostBlind _ s h
  | emitE3 => exact putItems_hostBlind _ s h
  | emitD v => exact execEmitD_hostBlind v s h
  | clsDirect c => exact execClsDirect_hostBlind c s h
  | _ => rfl

theorem dispatch_hostBlind (eoi : Bool) : HostBlind (dispatch eoi) := by
  intro s h
  have hg : gsel (s.withHost h) eoi = gsel s eoi := rfl
  unfold dispatch
  rw [hg]
  cases decodeGsel (gsel s eoi) with
  | ok i => exact runSelected_hostBlind i s h
  | error e => rfl

theorem charStep_hostBlind : HostBlind charStep := by
  have next : HostBlind fun t => if t.busy then dispatch false t else .next t := by
    intro t h
    cases hb : t.busy with
    | true => simpa [hb] using dispatch_hostBlind false t h
    | false => simp [hb]
  intro s h
  exact next.after (runSelected_hostBlind _ { s with pos := s.pos + 1 } h)

theorem endStep_hostBlind : HostBlind endStep := by
  intro s h
  cases he : s.escPend with
  | true => simp only [endStep, withHost_escPend, he, if_true]; rfl
  | false => simpa [endStep, he] using dispatch_hostBlind true s h

theorem microStep_hostBlind : HostBlind microStep := by
  intro s h
  unfold microStep
  simp only [withHost_mode, withHost_pos, withHost_inLen]
  cases s.mode with
  | enc =>
    by_cases hp : s.pos < s.inLen
    · simp only [hp, if_true]; exact dispatch_hostBlind false (loadOctet s) h
    · simp only [hp, if_false]; exact dispatch_hostBlind true s h
  | dec =>
    by_cases hp : s.pos < s.inLen
    · simp only [hp, if_true]; exact charStep_hostBlind s h
    · simp only [hp, if_false]; exact endStep_hostBlind s h

theorem runCore_hostBlind (n : Nat) : HostBlind (runCore n) := by
  induction n with
  | zero => exact fun _ _ => rfl
  | succ n ih =>
    intro s h
    cases hb : s.busy with
    | true => simp only [runCore, withHost_busy, hb, if_true, microStep_hostBlind s h, ih.seq_swap]
    | false => rw [runCore_idle hb, runCore_idle (by simpa using hb), seq_next]

/-! ## O39: the micro-steps compute the command -/

/-- `n` steps of the machine, at the model's own types. -/
def runSteps (n : Nat) (s : State) : Result := Host.Core.run Sys2Proof.core n s

theorem runSteps_succ (n : Nat) (s : State) : runSteps (n + 1) s = seq (step s) (runSteps n) := by
  have hs : Sys2Proof.core.step s = step s := rfl
  simp only [runSteps, Host.Core.run, hs]
  cases step s <;> rfl

theorem step_withHost_cons (a : HostAct) (l : List HostAct) (s : State) :
    step (s.withHost (a :: l)) = hostMove a (s.withHost l) := rfl

/-- While the host waits, the core runs. -/
theorem runSteps_waits (n : Nat) (rest : List HostAct) (s : State) :
    runSteps n (s.withHost (List.replicate n .wait ++ rest)) = runCore n (s.withHost rest) := by
  induction n generalizing s with
  | zero => rfl
  | succ n ih =>
    rw [runSteps_succ, List.replicate_succ, List.cons_append, step_withHost_cons, hostMove]
    cases hb : s.busy with
    | true =>
      simp only [coreMove, runCore, withHost_busy, hb, if_true, microStep_hostBlind s, seq_assoc,
        seq_next]
      exact congrArg (seq (microStep s)) (funext ih)
    | false =>
      have hi : (s.withHost rest).busy = false := hb
      simp only [coreMove, withHost_busy, hb, Bool.false_eq_true, if_false, seq_next, ih,
        runCore_idle hi]

theorem whenIdle_hostBlind {op : State → Result} (h : HostBlind op) :
    HostBlind fun s => whenIdle s (op s) := by
  intro s l
  cases hb : s.busy with
  | true => simp [hb]
  | false => simp [hb, h s l]

theorem configure_hostBlind (tlen : BitVec 2) (tchar : CharCode) :
    HostBlind fun s => .next (configure tlen tchar s) := by
  intro s h
  unfold configure
  split <;> rfl

theorem start_hostBlind {accept : State → State}
    (ha : ∀ s h, accept (s.withHost h) = (accept s).withHost h) :
    HostBlind fun s => if s.cfgOk then .next (accept s) else .next (raiseError .notConfigured s) := by
  intro s h
  cases hc : s.cfgOk with
  | true => simp [hc, ha]
  | false => simp only [withHost_cfgOk, hc]; rfl

theorem issueCmd_hostBlind (w : BitVec 12) : HostBlind (issueCmd w) := by
  have illegal_hostBlind : HostBlind fun s => .next (raiseError .illegalCommand s) := fun _ _ => rfl
  unfold HostBlind issueCmd
  obtain ⟨tlen, tchar, h⟩ | h | h | ⟨low, h⟩ | ⟨m, low, h⟩ := decodeCmd_cases w <;> simp only [h]
  · exact whenIdle_hostBlind (configure_hostBlind tlen tchar)
  · exact whenIdle_hostBlind (start_hostBlind fun _ _ => rfl)
  · exact whenIdle_hostBlind (start_hostBlind fun _ _ => rfl)
  · exact whenIdle_hostBlind illegal_hostBlind
  · exact whenIdle_hostBlind illegal_hostBlind

/-- Presenting a word to an idle block and running the core to completion is the command as one step: `ENC`
and `DEC` by their definitions, and the others because they leave the block idle. -/
theorem issueCmd_then_runCore (w : BitVec 12) {s : State} (hb : s.busy = false) :
    seq (issueCmd w s) (runCore (s.inLen + 1)) = exec (decodeCmd w) s := by
  unfold issueCmd
  obtain ⟨tlen, tchar, h⟩ | h | h | ⟨low, h⟩ | ⟨m, low, h⟩ := decodeCmd_cases w <;> simp only [h]
  · have hc : (configure tlen tchar s).busy = false := by
      unfold configure
      split <;> exact hb
    simp [exec, execCfg, hb, runCore_idle hc]
  · cases hc : s.cfgOk with
    | true => simp [exec, startEnc, execEnc, hb, hc]
    | false => simp [exec, startEnc, execEnc, hb, hc, runCore_idle]
  · cases hc : s.cfgOk with
    | true => simp [exec, startDec, execDec, hb, hc]
    | false => simp [exec, startDec, execDec, hb, hc, runCore_idle]
  · simp [exec, execIllegalOp, hb, runCore_idle]
  · simp [exec, execIllegalOperand, hb, runCore_idle]

/-- Settles O39: the core's run under the waiting host is `runCore`, whatever the host's list holds, and
acceptance followed by `runCore` is the command. -/
theorem microStepsComputeTheCommand : Obligations.MicroStepsComputeTheCommand := by
  intro s w rest hb
  have waiting : (fun u : State => runSteps (s.inLen + 1)
        (u.withHost (List.replicate (s.inLen + 1) .wait ++ rest))) =
      fun u => runCore (s.inLen + 1) (u.withHost rest) := funext (runSteps_waits _ rest)
  calc runSteps (s.inLen + 2)
        (s.withHost (.issue w :: (List.replicate (s.inLen + 1) .wait ++ rest)))
      = seq (issueCmd w s) fun u => runSteps (s.inLen + 1)
          (u.withHost (List.replicate (s.inLen + 1) .wait ++ rest)) := by
        rw [runSteps_succ, step_withHost_cons, hostMove, issueCmd_hostBlind, seq_assoc]
        simp only [seq_next]
    _ = seq (issueCmd w (s.withHost rest)) (runCore (s.inLen + 1)) := by
        rw [waiting, issueCmd_hostBlind, seq_assoc]
        simp only [seq_next]
    _ = step (s.withHost (.call w :: rest)) := by
        rw [step_withHost_cons, hostMove, ← issueCmd_then_runCore w (s := s.withHost rest) hb,
          withHost_inLen]

end Sys2Proof.Machine

/-! ## O44: two runs that agree on what counts stay in lockstep -/

namespace Sys2Proof.Machine

/-! ### Outcomes of two runs -/

/-- Both runs answer, with next states that `R` relates, or both stop for one reason. -/
inductive Matched (R : State → State → Prop) : Result → Result → Prop where
  | next {s t : State} (h : R s t) : Matched R (.next s) (.next t)
  | fault (f : Fault) : Matched R (.fault f) (.fault f)
  | refused (q : Refusal) : Matched R (.refused q) (.refused q)

theorem Matched.seq {R Q : State → State → Prop} {r r' : Result} {k k' : State → Result}
    (h : Matched R r r') (hk : ∀ s t, R s t → Matched Q (k s) (k' t)) :
    Matched Q (seq r k) (Machine.seq r' k') := by
  cases h with
  | next h => exact hk _ _ h
  | fault f => exact .fault f
  | refused q => exact .refused q

theorem Matched.mono {R Q : State → State → Prop} {r r' : Result} (h : Matched R r r')
    (hRQ : ∀ s t, R s t → Q s t) : Matched Q r r' := by
  cases h with
  | next h => exact .next (hRQ _ _ h)
  | fault f => exact .fault f
  | refused q => exact .refused q

theorem Matched.exists_next {R : State → State → Prop} {s : State} {r : Result}
    (h : Matched R (.next s) r) : ∃ t, r = .next t ∧ R s t := by
  cases h with
  | next h => exact ⟨_, rfl, h⟩

/-! ### The lockstep relation -/

/-- The entries that count of a group register with count `g` (R22, R23, V5). -/
def SameGroup {α : Type} {k : Nat} (g : BitVec 3) (xs ys : Vector α k) : Prop :=
  ∀ (i : Nat) (h : i < k), i < g.toNat → xs[i] = ys[i]

theorem SameGroup.empty {α : Type} {k : Nat} (xs ys : Vector α k) : SameGroup 0#3 xs ys :=
  fun i _ hg => absurd hg (Nat.not_lt_zero i)

/-- One more entry joins both groups. -/
theorem SameGroup.push {α : Type} {k : Nat} {g : BitVec 3} {xs ys : Vector α k}
    (h : SameGroup g xs ys) (v : α) :
    SameGroup (g + 1#3) (xs.setIfInBounds g.toNat v) (ys.setIfInBounds g.toNat v) := by
  intro i hi hg
  rw [Vector.getElem_setIfInBounds, Vector.getElem_setIfInBounds]
  split
  · rfl
  · next hne =>
    refine h i hi ?_
    have : (g + 1#3).toNat ≤ g.toNat + 1 := by rw [BitVec.toNat_add]; exact Nat.mod_le _ _
    omega

/-- Two running operations that agree on everything a micro-step reads and a host may later see, with `n`
items of the input left: not on the group at or above `GCNT`, on `OUT` at or above `WPOS`, on `IN` at or above
`IN_LEN`, nor on the registers of the datapath that is not running. -/
structure Lockstep (n : Nat) (s t : State) : Prop where
  left : s.pos + n = s.inLen
  busy : s.busy = true ∧ t.busy = true
  params : s.params = t.params
  cfgOk : s.cfgOk = t.cfgOk
  tag : s.tag = t.tag
  encLut : s.encLut = t.encLut
  decLut : s.decLut = t.decLut
  err : s.err = t.err
  mode : s.mode = t.mode
  inLen : s.inLen = t.inLen
  input : ∀ i, i < s.inLen → s.inBuf.read i = t.inBuf.read i
  pos : s.pos = t.pos
  wpos : s.wpos = t.wpos
  output : ∀ i, i < s.wpos → s.outBuf.read i = t.outBuf.read i
  gcnt : s.gcnt = t.gcnt
  eb : s.mode = .enc → SameGroup s.gcnt s.eb t.eb
  ds : s.mode = .dec → SameGroup s.gcnt s.ds t.ds
  escPend : s.mode = .dec → s.escPend = t.escPend

section
variable {n : Nat} {s t : State}

/-! ### What the registers' updates do to it -/

theorem Lockstep.nextItem (l : Lockstep (n + 1) s t) : coreReadIn s s.pos = coreReadIn t t.pos := by
  have hp : s.pos < s.inLen := by have := l.left; omega
  simp only [coreReadIn, ← l.pos, l.input s.pos hp]

theorem Lockstep.advance (l : Lockstep (n + 1) s t) :
    Lockstep n { s with pos := s.pos + 1 } { t with pos := t.pos + 1 } :=
  { l with
    left := by have := l.left; dsimp only; omega
    pos := congrArg (· + 1) l.pos }

theorem Lockstep.loadOctet (l : Lockstep (n + 1) s t) (hm : s.mode = .enc) :
    Lockstep n (loadOctet s) (loadOctet t) :=
  { l.advance with
    gcnt := congrArg (· + 1#3) l.gcnt
    eb := fun _ => by
      rw [loadOctet_eb, loadOctet_eb, ← l.nextItem, ← l.gcnt]
      exact (l.eb hm).push _
    ds := fun hd => by cases hm.symm.trans hd }

theorem Lockstep.pushSymbol (l : Lockstep n s t) (hm : s.mode = .dec) (v : Sextet) :
    Lockstep n (pushSymbol v s) (pushSymbol v t) :=
  { l with
    gcnt := congrArg (· + 1#3) l.gcnt
    eb := fun he => by cases hm.symm.trans he
    ds := fun _ => by
      rw [pushSymbol_ds, pushSymbol_ds, ← l.gcnt]
      exact (l.ds hm).push _ }

theorem Lockstep.setEscPend (l : Lockstep n s t) (b : Bool) :
    Lockstep n { s with escPend := b } { t with escPend := b } :=
  { l with escPend := fun _ => rfl }

theorem Lockstep.emptyGroup (l : Lockstep n s t) :
    Lockstep n { s with gcnt := 0#3 } { t with gcnt := 0#3 } :=
  { l with
    gcnt := rfl
    eb := fun _ => .empty _ _
    ds := fun _ => .empty _ _ }

theorem Lockstep.storeItems (l : Lockstep n s t) (items : List (BitVec 8)) :
    Lockstep n (storeItems items s) (storeItems items t) :=
  { l with
    wpos := congrArg (· + items.length) l.wpos
    output := fun i hi => by
      rw [storeItems_wpos] at hi
      rw [storeItems_outBuf, storeItems_outBuf, ← l.wpos, Mem.read_writeAll, Mem.read_writeAll]
      split
      · rfl
      · exact l.output i (by omega) }

theorem Lockstep.sameVisible_complete (l : Lockstep n s t) : SameVisible (complete s) (complete t) where
  idle := ⟨rfl, rfl⟩
  params := l.params
  cfgOk := l.cfgOk
  tables _ := ⟨l.tag, l.encLut, l.decLut⟩
  err := l.err
  inLen := l.inLen
  input := l.input
  outLen := l.wpos
  output := l.output

theorem Lockstep.sameVisible_abort (l : Lockstep n s t) (e : ErrCode) :
    SameVisible (abort e s) (abort e t) where
  idle := ⟨rfl, rfl⟩
  params := l.params
  cfgOk := l.cfgOk
  tables _ := ⟨l.tag, l.encLut, l.decLut⟩
  err := rfl
  inLen := l.inLen
  input := l.input
  outLen := rfl
  output _ _ := rfl

/-! ### What the micro-operations do to it -/

theorem Lockstep.putItems (l : Lockstep n s t) (items : List (BitVec 8)) :
    Matched (Lockstep n) (putItems items s) (putItems items t) := by
  induction items generalizing s t with
  | nil => exact .next l
  | cons c items ih =>
    refine Matched.seq (R := Lockstep n) ?_ fun _ _ => ih
    have hr : outHolds t.params t.wpos = outHolds s.params s.wpos := by rw [l.params, l.wpos]
    unfold putItem
    rw [hr]
    split
    · exact .next (l.storeItems [c])
    · rw [l.wpos]
      exact .fault _

theorem Lockstep.emitAll (l : Lockstep n s t) (vs : List Sextet) :
    Matched (Lockstep n) (emitAll vs s) (emitAll vs t) := by
  rw [emitAll_eq_putItems, emitAll_eq_putItems, ← l.tag, ← l.encLut]
  exact l.putItems _

/-- A dispatch before the end of the input: a full group is written out and emptied, or nothing is done. -/
theorem Lockstep.runGroup (l : Lockstep n s t) {i : Instr} (h : GroupSelects s.mode false s.gcnt i) :
    Matched (Lockstep n) (runSelected i s) (runSelected i t) := by
  have heb := l.eb
  have hds := l.ds
  generalize s.mode = m, s.gcnt = g at h heb hds
  cases h with
  | noDispatch => exact .next l
  | pack3 =>
    simp only [runSelected, execPack3, heb rfl 0 _ (by decide), heb rfl 1 _ (by decide),
      heb rfl 2 _ (by decide)]
    exact (l.emitAll _).seq fun _ _ h => .next h.emptyGroup
  | unpack4 =>
    simp only [runSelected, execUnpack4, hds rfl 0 _ (by decide), hds rfl 1 _ (by decide),
      hds rfl 2 _ (by decide), hds rfl 3 _ (by decide)]
    exact (l.putItems _).seq fun _ _ h => .next h.emptyGroup

/-- A dispatch at the end of the input: the tail is written out and the operation completes, or it aborts. -/
theorem Lockstep.runTail (l : Lockstep n s t) {i : Instr} (h : GroupSelects s.mode true s.gcnt i) :
    Matched SameVisible (runSelected i s) (runSelected i t) := by
  have heb := l.eb
  have hds := l.ds
  generalize s.mode = m, s.gcnt = g at h heb hds
  cases h with
  | pack2 =>
    simp only [runSelected, execPack2, heb rfl 0 _ (by decide), heb rfl 1 _ (by decide)]
    exact (l.emitAll _).seq fun _ _ h => .next h.sameVisible_complete
  | pack1 =>
    simp only [runSelected, execPack1, heb rfl 0 _ (by decide)]
    exact (l.emitAll _).seq fun _ _ h => .next h.sameVisible_complete
  | pack0 => exact .next l.sameVisible_complete
  | unpack3 =>
    simp only [runSelected, execUnpack3, hds rfl 0 _ (by decide), hds rfl 1 _ (by decide),
      hds rfl 2 _ (by decide)]
    exact (l.putItems _).seq fun _ _ h => .next h.sameVisible_complete
  | unpack2 =>
    simp only [runSelected, execUnpack2, hds rfl 0 _ (by decide), hds rfl 1 _ (by decide)]
    exact (l.putItems _).seq fun _ _ h => .next h.sameVisible_complete
  | unpack1 => exact .next (l.sameVisible_abort _)
  | unpack0 => exact .next l.sameVisible_complete

/-- The dispatcher makes the same selection in both runs, or stops for the same reason in both. -/
theorem Lockstep.dispatch (l : Lockstep n s t) {eoi : Bool} {R : State → State → Prop}
    (h : ∀ i, GroupSelects s.mode eoi s.gcnt i → Matched R (runSelected i s) (runSelected i t)) :
    Matched R (dispatch eoi s) (dispatch eoi t) := by
  have hg : gsel t eoi = gsel s eoi := by simp only [gsel, l.mode, l.gcnt]
  unfold Machine.dispatch
  rw [hg]
  cases hd : decodeGsel (gsel s eoi) with
  | ok i => exact h i (groupSelects_of_gsel hd)
  | error e => exact .fault _

/-- After a micro-step: the operation has ended in both runs, or goes on in lockstep. -/
def EndedOrLockstep (n : Nat) (s t : State) : Prop := SameVisible s t ∨ Lockstep n s t

/-- The character `c` selects one micro-operation in both runs. -/
theorem Lockstep.runChar (l : Lockstep n s t) (hm : s.mode = .dec) (c : CharCode) :
    Matched (EndedOrLockstep n) (runSelected (selectChar c s) s) (runSelected (selectChar c t) t) := by
  have resolved (v : Sextet) : EndedOrLockstep n (resolveEscape v s) (resolveEscape v t) :=
    .inr ((l.pushSymbol hm v).setEscPend false)
  have hsel : selectChar c t = selectChar c s := by
    simp only [selectChar, l.escPend hm, l.tag, l.decLut]
  rw [hsel]
  unfold selectChar decodeEscDigit decodeClassify
  split
  · split
    · exact .next (resolved _)
    split
    · exact .next (resolved _)
    split
    · exact .next (resolved _)
    · exact .next (.inl (l.sameVisible_abort _))
  · split
    · exact .next (.inr (l.setEscPend true))
    split
    · have hd : decLutAt t c = decLutAt s c := by simp only [decLutAt, l.decLut]
      simp only [runSelected, execClsDirect, hd]
      split
      · exact .next (.inr (l.pushSymbol hm _))
      · exact .fault _
    · exact .next (.inl (l.sameVisible_abort _))

/-! ### The micro-steps -/

theorem Lockstep.charStep (l : Lockstep (n + 1) s t) (hm : s.mode = .dec) :
    Matched (EndedOrLockstep n) (charStep s) (charStep t) := by
  unfold Machine.charStep
  rw [← l.nextItem]
  refine (l.advance.runChar hm _).seq fun u v h => ?_
  rcases h with h | h
  · simp only [h.idle, Bool.false_eq_true, if_false]
    exact .next (.inl h)
  · simp only [h.busy, if_true]
    exact (h.dispatch fun _ => h.runGroup).mono fun _ _ => .inr

/-- A micro-step that takes an item. -/
theorem Lockstep.microStep_item (l : Lockstep (n + 1) s t) :
    Matched (EndedOrLockstep n) (microStep s) (microStep t) := by
  have hs : s.pos < s.inLen := by have := l.left; omega
  have ht : t.pos < t.inLen := by rw [← l.pos, ← l.inLen]; exact hs
  cases hm : s.mode with
  | enc =>
    have ll := l.loadOctet hm
    simp only [microStep, hm, ← l.mode, hs, ht, if_true]
    exact (ll.dispatch fun _ => ll.runGroup).mono fun _ _ => .inr
  | dec =>
    simp only [microStep, hm, ← l.mode, hs, ht, if_true]
    exact l.charStep hm

/-- The micro-step at the end of the input. -/
theorem Lockstep.microStep_end (l : Lockstep 0 s t) :
    Matched SameVisible (microStep s) (microStep t) := by
  have hs : ¬ s.pos < s.inLen := by have := l.left; omega
  have ht : ¬ t.pos < t.inLen := by rw [← l.pos, ← l.inLen]; exact hs
  have hd : Matched SameVisible (Machine.dispatch true s) (Machine.dispatch true t) :=
    l.dispatch fun _ => l.runTail
  cases hm : s.mode with
  | enc => simpa only [microStep, hm, ← l.mode, hs, ht, if_false] using hd
  | dec =>
    simp only [microStep, hm, ← l.mode, hs, ht, if_false, endStep, ← l.escPend hm]
    split
    · exact .next (l.sameVisible_abort _)
    · exact hd

/-- The `n` micro-steps that take the items left and the one at their end complete the operation. -/
theorem Lockstep.runCore (l : Lockstep n s t) :
    Matched SameVisible (runCore (n + 1) s) (runCore (n + 1) t) := by
  induction n generalizing s t with
  | zero =>
    simp only [Machine.runCore, l.busy, if_true]
    exact l.microStep_end.seq fun _ _ h => .next h
  | succ n ih =>
    rw [Machine.runCore, Machine.runCore, if_pos l.busy.1, if_pos l.busy.2]
    refine l.microStep_item.seq fun u v h => ?_
    rcases h with h | h
    · rw [runCore_idle h.idle.1, runCore_idle h.idle.2]
      exact .next h
    · exact ih h

end

/-! ### The commands -/

section
variable {s t : State}

theorem SameVisible.setErr (h : SameVisible s t) (e : ErrCode) :
    SameVisible { s with err := e } { t with err := e } :=
  { h with err := rfl }

theorem SameVisible.commitTables (h : SameVisible s t) (c : CharCode) :
    SameVisible (commitTables c s) (commitTables c t) :=
  { h with
    cfgOk := rfl
    tables := fun _ => ⟨rfl, rfl, rfl⟩
    err := rfl }

theorem SameVisible.configure (h : SameVisible s t) (tlen : BitVec 2) (c : CharCode) :
    SameVisible (configure tlen c s) (configure tlen c t) := by
  unfold Machine.configure
  split
  · exact h.commitTables c
  · exact h.setErr .invalidConfiguration

theorem SameVisible.notConfigured (h : SameVisible s t) :
    SameVisible (raiseError .notConfigured s) (raiseError .notConfigured t) :=
  { h with
    err := rfl
    outLen := rfl
    output := fun i hi => absurd hi (Nat.not_lt_zero i) }

/-- An accepted `ENC` starts in lockstep: no register of an earlier call is left in play (R80). -/
theorem SameVisible.acceptEnc (h : SameVisible s t) (hc : s.cfgOk = true) :
    Lockstep s.inLen (acceptEnc s) (acceptEnc t) :=
  have ⟨tag, encLut, decLut⟩ := h.tables hc
  { h with
    left := Nat.zero_add _
    busy := ⟨rfl, rfl⟩
    tag, encLut, decLut
    err := rfl
    mode := rfl
    pos := rfl
    wpos := rfl
    output := fun i hi => absurd hi (Nat.not_lt_zero i)
    gcnt := rfl
    eb := fun _ => .empty _ _
    ds := fun _ => .empty _ _
    escPend := fun hd => nomatch hd }

/-- An accepted `DEC` starts in lockstep (R99). -/
theorem SameVisible.acceptDec (h : SameVisible s t) (hc : s.cfgOk = true) :
    Lockstep s.inLen (acceptDec s) (acceptDec t) :=
  { h.acceptEnc hc with
    mode := rfl
    eb := fun _ => .empty _ _
    ds := fun _ => .empty _ _
    escPend := fun _ => rfl }

/-- A command word does the same to two states that agree on what counts, as far as what counts goes. -/
theorem SameVisible.exec_command (h : SameVisible s t) (w : BitVec 12) :
    Matched SameVisible (exec (decodeCmd w) s) (exec (decodeCmd w) t) := by
  obtain ⟨hs, ht⟩ := h.idle
  obtain ⟨tlen, c, hw⟩ | hw | hw | ⟨low, hw⟩ | ⟨m, low, hw⟩ := decodeCmd_cases w <;> rw [hw]
  · simp only [exec, execCfg, whenIdle_idle _ hs, whenIdle_idle _ ht]
    exact .next (h.configure tlen c)
  · simp only [exec, execEnc, whenIdle_idle _ hs, whenIdle_idle _ ht, ← h.cfgOk, ← h.inLen]
    split
    · next hc => exact (h.acceptEnc hc).runCore
    · exact .next h.notConfigured
  · simp only [exec, execDec, whenIdle_idle _ hs, whenIdle_idle _ ht, ← h.cfgOk, ← h.inLen]
    split
    · next hc => exact (h.acceptDec hc).runCore
    · exact .next h.notConfigured
  · simp only [exec, execIllegalOp, whenIdle_idle _ hs, whenIdle_idle _ ht]
    exact .next (h.setErr .illegalCommand)
  · simp only [exec, execIllegalOperand, whenIdle_idle _ hs, whenIdle_idle _ ht]
    exact .next (h.setErr .illegalCommand)

/-! ### The host's view -/

theorem SameVisible.hostReadIn (h : SameVisible s t) {i : Nat} (hi : i < s.inLen) :
    hostReadIn s i = hostReadIn t i := by
  simp only [Machine.hostReadIn, h.idle, ← h.inLen, h.input i hi]

theorem SameVisible.hostReadOut (h : SameVisible s t) {i : Nat} (hi : i < s.outLen) :
    hostReadOut s i = hostReadOut t i := by
  simp only [Machine.hostReadOut, h.idle, ← h.outLen, h.output i hi]

theorem SameVisible.hostReadLut (h : SameVisible s t) (hc : s.cfgOk = true) (a : Nat) :
    hostReadLut s a = hostReadLut t a := by
  obtain ⟨htag, henc, hdec⟩ := h.tables hc
  simp only [Machine.hostReadLut, lutItem, h.idle, h.cfgOk, h.params, htag, henc, hdec]

/-- States that agree on what counts give the host one view (R139). -/
theorem SameVisible.view_eq (h : SameVisible s t) : view s = view t := by
  have hstatus : statusWord s = statusWord t := by
    simp only [statusWord, h.cfgOk, h.idle, h.err]
  have hin : (List.range s.inLen).map (Machine.hostReadIn s) =
      (List.range t.inLen).map (Machine.hostReadIn t) := by
    rw [← h.inLen]
    exact List.map_congr_left fun i hi => h.hostReadIn (List.mem_range.mp hi)
  have hout : (List.range s.outLen).map (Machine.hostReadOut s) =
      (List.range t.outLen).map (Machine.hostReadOut t) := by
    rw [← h.outLen]
    exact List.map_congr_left fun i hi => h.hostReadOut (List.mem_range.mp hi)
  have hlut (hc : s.cfgOk = true) :
      (List.range 318).map (fun off => Machine.hostReadLut s (s.params.lutBase + off)) =
        (List.range 318).map (fun off => Machine.hostReadLut t (t.params.lutBase + off)) :=
    List.map_congr_left fun off _ => by rw [h.hostReadLut hc, h.params]
  unfold view
  rw [hstatus, hin, hout, h.inLen, h.outLen, ← h.cfgOk]
  split
  · next hc => rw [hlut hc]
  · rfl

end

/-- Settles O44: the two runs of a command stay in lockstep to its end, and what they then agree on fixes
the view. -/
theorem hiddenStateNeverShows : Obligations.HiddenStateNeverShows := by
  intro w s s' t hv ht
  have hm := hv.exec_command w
  rw [ht] at hm
  obtain ⟨t', ht', h⟩ := hm.exists_next
  exact ⟨t', ht', h, h.view_eq⟩

end Sys2Proof.Machine

/-! ## Shared facts: what a dispatch and a character selection can do -/

namespace Sys2Proof.Machine

theorem decodeGsel_wellFormed {w : BitVec 5} {i : Instr} (h : decodeGsel w = .ok i) :
    WellFormed i = true := by
  unfold decodeGsel at h
  iterate 9
    obtain ⟨-, h⟩ | ⟨-, h⟩ := ite_eq_iff.mp h
    · cases h; rfl
  obtain ⟨⟨-, hlt⟩, h⟩ | ⟨-, h⟩ := ite_eq_iff.mp h
  · cases h; exact decide_eq_true hlt
  · cases h

theorem dispatch_eq_next {eoi : Bool} {s t : State} (h : dispatch eoi s = .next t) :
    ∃ i, GroupSelects s.mode eoi s.gcnt i ∧ WellFormed i = true ∧ runSelected i s = .next t := by
  unfold dispatch at h
  cases hd : decodeGsel (gsel s eoi) with
  | ok i =>
    rw [hd] at h
    exact ⟨i, groupSelects_of_gsel hd, decodeGsel_wellFormed hd, h⟩
  | error e => rw [hd] at h; cases h

theorem symbol_chars_length_le (σ : Symbol) : σ.chars.length ≤ 2 := by
  cases σ <;> simp [Symbol.chars]

theorem textOf_length_le (tag : CharCode) (enc : EncLut) (vs : List Sextet) :
    (textOf tag enc vs).length ≤ 2 * vs.length := by
  induction vs with
  | nil => exact Nat.le_refl 0
  | cons v vs ih =>
    have := symbol_chars_length_le (encTable tag enc v)
    rw [textOf_cons, List.length_append, List.length_cons]
    omega

/-- Everything a dispatch before the end of the input can do: nothing while the group has room, else the
full group is written out and emptied (R54, R81, R100). -/
theorem dispatch_before_end_cases {s t : State} (h : dispatch false s = .next t) :
    (s.gcnt.toNat < s.mode.groupSize ∧ t = s) ∨
    (s.mode = .enc ∧ s.gcnt = 3#3 ∧
      ∃ l : List (BitVec 8), l.length ≤ 8 ∧ t = { storeItems l s with gcnt := 0#3 }) ∨
    (s.mode = .dec ∧ s.gcnt = 4#3 ∧
      ∃ l : List (BitVec 8), l.length = 3 ∧ t = { storeItems l s with gcnt := 0#3 }) := by
  obtain ⟨i, hsel, hwf, hrun⟩ := dispatch_eq_next h
  generalize s.mode = m, s.gcnt = g at hsel
  cases hsel with
  | noDispatch => exact .inl ⟨of_decide_eq_true hwf, by cases hrun; rfl⟩
  | pack3 =>
    obtain ⟨u, hu, ht⟩ := seq_eq_next hrun
    cases ht
    rw [emitAll_eq_next hu]
    exact .inr (.inl ⟨rfl, rfl, _, textOf_length_le _ _ _, rfl⟩)
  | unpack4 =>
    obtain ⟨u, hu, ht⟩ := seq_eq_next hrun
    cases ht
    rw [(putItems_eq_next hu).1]
    exact .inr (.inr ⟨rfl, rfl, _, rfl, rfl⟩)

/-- Everything a dispatch at the end of the input can do: write a tail, which may hold no item, and complete,
or abort on a dangling symbol (R82, R101). -/
theorem dispatch_at_end_cases {s t : State} (h : dispatch true s = .next t) :
    (∃ l : List (BitVec 8), t = complete (storeItems l s)) ∨ t = abort .danglingSymbol s := by
  have emitted {vs : List Sextet} (h : seq (emitAll vs s) (fun u => .next (complete u)) = .next t) :
      ∃ l : List (BitVec 8), t = complete (storeItems l s) := by
    obtain ⟨u, hu, ht⟩ := seq_eq_next h
    cases ht
    exact ⟨_, congrArg complete (emitAll_eq_next hu)⟩
  have put {l : List (BitVec 8)} (h : seq (putItems l s) (fun u => .next (complete u)) = .next t) :
      ∃ l : List (BitVec 8), t = complete (storeItems l s) := by
    obtain ⟨u, hu, ht⟩ := seq_eq_next h
    cases ht
    exact ⟨l, congrArg complete (putItems_eq_next hu).1⟩
  obtain ⟨i, hsel, -, hrun⟩ := dispatch_eq_next h
  generalize s.mode = m, s.gcnt = g at hsel
  cases hsel with
  | pack2 => exact .inl (emitted hrun)
  | pack1 => exact .inl (emitted hrun)
  | pack0 => cases hrun; exact .inl ⟨[], rfl⟩
  | unpack3 => exact .inl (put hrun)
  | unpack2 => exact .inl (put hrun)
  | unpack1 => cases hrun; exact .inr rfl
  | unpack0 => cases hrun; exact .inl ⟨[], rfl⟩

/-- Everything the character selected by the classifier or the escape-digit resolver can do (R56, R91, R92,
R100). -/
theorem selectedChar_cases {c : CharCode} {s t : State}
    (h : runSelected (selectChar c s) s = .next t) :
    (∃ e, t = abort e s) ∨ (s.escPend = true ∧ ∃ v, t = resolveEscape v s) ∨
      (s.escPend = false ∧ t = { s with escPend := true }) ∨
      (s.escPend = false ∧ ∃ v, t = pushSymbol v s) := by
  unfold selectChar decodeEscDigit decodeClassify at h
  split at h
  · next he =>
    split at h
    · cases h; exact .inr (.inl ⟨he, _, rfl⟩)
    split at h
    · cases h; exact .inr (.inl ⟨he, _, rfl⟩)
    split at h
    · cases h; exact .inr (.inl ⟨he, _, rfl⟩)
    · cases h; exact .inl ⟨_, rfl⟩
  · next he =>
    have he : s.escPend = false := by simpa using he
    split at h
    · cases h; exact .inr (.inr (.inl ⟨he, rfl⟩))
    split at h
    · next hd =>
      have hs : runSelected (.clsDirect c) s = .next (pushSymbol ((decLutAt s c).setWidth 6) s) :=
        if_pos hd
      cases hs.symm.trans h
      exact .inr (.inr (.inr ⟨he, _, rfl⟩))
    · cases h; exact .inl ⟨_, rfl⟩

end Sys2Proof.Machine

/-! ## O58, O59: the invariant -/

namespace Sys2Proof.Machine

/-! ### Reset -/

theorem inv_resetWith {p : Params} (h : capacityLawful p = true) : Inv (State.resetWith p) where
  inCanonical := (reset_buffers_wf p).1
  outCanonical := (reset_buffers_wf p).2
  capacity := ⟨h, by
    show inLenHolds p 0 = true
    unfold inLenHolds
    split <;> simp⟩
  tables hc := by cases hc
  run hb := by cases hb
  out i hi := absurd hi (Nat.not_lt_zero i)

/-- Settles O58: after reset the buffers are empty, the block is idle and unconfigured, so that only the
capacities are asked anything of. -/
theorem invariantHoldsAtReset : Obligations.InvariantHoldsAtReset :=
  ⟨inv_resetWith rfl, fun _ => inv_resetWith⟩

/-! ### A running operation -/

/-- What holds of a running operation also inside a micro-step, while the counts of its group do not
(R134, R20): every clause of `Inv` but those counts. -/
structure Running (s : State) : Prop where
  inCanonical : s.inBuf.wf
  outCanonical : s.outBuf.wf
  capacity : CapacityOk s
  tables : TablesOk s
  busy : s.busy = true
  cfgOk : s.cfgOk = true
  err : s.err = .ok
  outLen : s.outLen = 0
  pos : s.pos ≤ s.inLen
  written : ∀ i, i < s.wpos → (s.outBuf.read i).isSome = true

section
variable {s t : State}

theorem Inv.running (h : Inv s) (hb : s.busy = true) : Running s :=
  have ⟨cfgOk, err, outLen, pos, written, _⟩ := h.run hb
  { h with busy := hb, cfgOk, err, outLen, pos, written }

theorem Inv.encRunOk (h : Inv s) (hb : s.busy = true) (hm : s.mode = .enc) : EncRunOk s := by
  obtain ⟨-, -, -, -, -, hcounts⟩ := h.run hb
  rwa [hm] at hcounts

theorem Inv.decRunOk (h : Inv s) (hb : s.busy = true) (hm : s.mode = .dec) : DecRunOk s := by
  obtain ⟨-, -, -, -, -, hcounts⟩ := h.run hb
  rwa [hm] at hcounts

/-- A running operation whose counts are right is a good state. -/
theorem Running.inv (r : Running s) (henc : s.mode = .enc → EncRunOk s)
    (hdec : s.mode = .dec → DecRunOk s) : Inv s :=
  { r with
    run := fun _ => ⟨r.cfgOk, r.err, r.outLen, r.pos, r.written, by
      cases hm : s.mode with
      | enc => exact henc hm
      | dec => exact hdec hm⟩
    out := fun i hi => by rw [r.outLen] at hi; exact absurd hi (Nat.not_lt_zero i) }

theorem Running.storeItems (r : Running s) (l : List (BitVec 8)) : Running (storeItems l s) :=
  { r with
    outCanonical := Mem.wf_writeAll r.outCanonical _ l
    written := fun i hi => by
      rw [storeItems_wpos] at hi
      rw [storeItems_outBuf, Mem.read_writeAll]
      split
      · exact by simpa using by omega
      · exact r.written i (by omega) }

theorem Running.emptyGroup (r : Running s) : Running { s with gcnt := 0#3 } := { r with }

theorem Running.advance (r : Running s) (hp : s.pos < s.inLen) : Running { s with pos := s.pos + 1 } :=
  { r with pos := hp }

theorem Running.loadOctet (r : Running s) (hp : s.pos < s.inLen) : Running (loadOctet s) :=
  { r.advance hp with }

/-- Completion makes readable what was written (R82, R101). -/
theorem Running.inv_complete (r : Running s) : Inv (complete s) :=
  { r with
    run := fun hb => by cases hb
    out := r.written }

theorem Running.inv_abort (r : Running s) (e : ErrCode) : Inv (abort e s) :=
  { r with
    outCanonical := List.Pairwise.nil
    run := fun hb => by cases hb
    out := fun i hi => absurd hi (Nat.not_lt_zero i) }

/-! ### The micro-steps -/

theorem Running.dispatch_at_end (r : Running s) (h : dispatch true s = .next t) : Inv t := by
  obtain ⟨l, rfl⟩ | rfl := dispatch_at_end_cases h
  · exact (r.storeItems l).inv_complete
  · exact r.inv_abort _

theorem toNat_gcnt_add_one {g : BitVec 3} (h : g.toNat < 7) : (g + 1#3).toNat = g.toNat + 1 := by
  rw [BitVec.toNat_add]
  exact Nat.mod_eq_of_lt (by simpa using Nat.succ_lt_succ h)

/-- The load micro-step: the third octet of a group brings at most 8 characters of text (R76, R81). -/
theorem Running.encode_load (r : Running s) (hm : s.mode = .enc) (hc : EncRunOk s) (hp : s.pos < s.inLen)
    (h : dispatch false (Machine.loadOctet s) = .next t) : Inv t := by
  obtain ⟨hg, hw⟩ := hc
  have hg1 : (s.gcnt + 1#3).toNat = s.pos % 3 + 1 := by rw [toNat_gcnt_add_one (by omega), hg]
  have r1 := r.loadOctet hp
  obtain ⟨hroom, rfl⟩ | ⟨-, hfull, l, hl, rfl⟩ | ⟨hd, -⟩ := dispatch_before_end_cases h
  · refine r1.inv (fun _ => ?_) fun hd => by cases hm.symm.trans hd
    simp only [loadOctet_mode, hm, Mode.groupSize, loadOctet_gcnt] at hroom
    refine ⟨?_, ?_⟩
    · simp only [loadOctet_gcnt, loadOctet_pos]; omega
    · simp only [loadOctet_wpos, loadOctet_pos]; omega
  · refine (r1.storeItems l).emptyGroup.inv (fun _ => ?_) fun hd => by cases hm.symm.trans hd
    have h3 : (s.gcnt + 1#3).toNat = 3 := congrArg BitVec.toNat hfull
    refine ⟨?_, ?_⟩
    · show 0 = (s.pos + 1) % 3
      omega
    · show s.wpos + l.length ≤ 8 * ((s.pos + 1) / 3)
      omega
  · cases hm.symm.trans hd

/-- The counts of a running decode whose group may be full: those of `DecRunOk` but its first. -/
structure DecLoaded (s : State) : Prop extends Running s where
  mode : s.mode = .dec
  group : s.gcnt.toNat ≤ 4
  wholeGroups : s.wpos % 3 = 0
  count : 4 * (s.wpos / 3) + s.gcnt.toNat + (if s.escPend then 1 else 0) ≤ s.pos

/-- A full group of a decode is 4 symbols and writes 3 octets (R94, R100). -/
theorem DecLoaded.dispatch (d : DecLoaded s) (h : dispatch false s = .next t) : Inv t := by
  have hcount := d.count
  obtain ⟨hroom, rfl⟩ | ⟨he, -⟩ | ⟨-, hfull, l, hl, rfl⟩ := dispatch_before_end_cases h
  · rw [d.mode] at hroom
    exact d.toRunning.inv (fun he => by cases d.mode.symm.trans he) fun _ =>
      ⟨hroom, d.wholeGroups, d.count⟩
  · cases d.mode.symm.trans he
  · refine (d.toRunning.storeItems l).emptyGroup.inv (fun he => by cases d.mode.symm.trans he) fun _ => ?_
    have hwhole := d.wholeGroups
    have h4 : s.gcnt.toNat = 4 := congrArg BitVec.toNat hfull
    refine ⟨Nat.zero_lt_succ 3, ?_, ?_⟩
    · show (s.wpos + l.length) % 3 = 0
      omega
    · show 4 * ((s.wpos + l.length) / 3) + 0 + (if s.escPend then 1 else 0) ≤ s.pos
      omega

/-- A selected character ends the decode, or costs the one item taken: it begins an escape, or adds a symbol
to the group and ends the escape if there is one. -/
theorem Running.decode_char (r : Running s) (hm : s.mode = .dec) (hc : DecRunOk s)
    (hp : s.pos < s.inLen) {c : CharCode}
    (h : runSelected (selectChar c s) { s with pos := s.pos + 1 } = .next t) :
    (Inv t ∧ t.busy = false) ∨ DecLoaded t := by
  obtain ⟨hg, hw, hcount⟩ := hc
  have r1 := r.advance hp
  have hg1 : (s.gcnt + 1#3).toNat = s.gcnt.toNat + 1 := toNat_gcnt_add_one (by omega)
  obtain ⟨e, rfl⟩ | ⟨he, v, rfl⟩ | ⟨he, rfl⟩ | ⟨he, v, rfl⟩ :=
    selectedChar_cases (s := { s with pos := s.pos + 1 }) h
  · exact .inl ⟨r1.inv_abort e, rfl⟩
  · rw [if_pos he] at hcount
    exact .inr { r1 with
      mode := hm
      group := hg1.trans_le hg
      wholeGroups := hw
      count := by
        show 4 * (s.wpos / 3) + (s.gcnt + 1#3).toNat + 0 ≤ s.pos + 1
        omega }
  · rw [if_neg (Bool.eq_false_iff.mp he)] at hcount
    exact .inr { r1 with
      mode := hm
      group := Nat.le_of_lt hg
      wholeGroups := hw
      count := Nat.succ_le_succ hcount }
  · have hesc : ¬ s.escPend = true := Bool.eq_false_iff.mp he
    rw [if_neg hesc] at hcount
    exact .inr { r1 with
      mode := hm
      group := hg1.trans_le hg
      wholeGroups := hw
      count := by
        show 4 * (s.wpos / 3) + (s.gcnt + 1#3).toNat + (if s.escPend then 1 else 0) ≤ s.pos + 1
        rw [if_neg hesc]
        omega }

theorem Inv.charStep (h : Inv s) (hb : s.busy = true) (hm : s.mode = .dec) (hp : s.pos < s.inLen)
    (ht : charStep s = .next t) : Inv t := by
  obtain ⟨u, hu, ht⟩ := seq_eq_next ht
  obtain ⟨hinv, hidle⟩ | d := (h.running hb).decode_char hm (h.decRunOk hb hm) hp hu
  · rw [if_neg (Bool.eq_false_iff.mp hidle)] at ht
    cases ht
    exact hinv
  · rw [if_pos d.busy] at ht
    exact d.dispatch ht

theorem Inv.endStep (h : Inv s) (hb : s.busy = true) (ht : endStep s = .next t) : Inv t := by
  have r := h.running hb
  unfold Machine.endStep at ht
  split at ht
  · cases ht
    exact r.inv_abort _
  · exact r.dispatch_at_end ht

/-- A micro-step of a running operation keeps the invariant. -/
theorem Inv.microStep (h : Inv s) (hb : s.busy = true) (ht : microStep s = .next t) : Inv t := by
  have r := h.running hb
  unfold Machine.microStep at ht
  cases hm : s.mode with
  | enc =>
    simp only [hm] at ht
    split at ht
    · next hp => exact r.encode_load hm (h.encRunOk hb hm) hp ht
    · exact r.dispatch_at_end ht
  | dec =>
    simp only [hm] at ht
    split at ht
    · next hp => exact h.charStep hb hm hp ht
    · exact h.endStep hb ht

theorem Inv.coreMove (h : Inv s) (ht : coreMove s = .next t) : Inv t := by
  unfold Machine.coreMove at ht
  split at ht
  · next hb => exact h.microStep hb ht
  · cases ht
    exact h

theorem Inv.runCore {n : Nat} (h : Inv s) (ht : runCore n s = .next t) : Inv t := by
  induction n generalizing s with
  | zero =>
    cases ht
    exact h
  | succ n ih =>
    unfold Machine.runCore at ht
    split at ht
    · next hb =>
      obtain ⟨u, hu, ht⟩ := seq_eq_next ht
      exact ih (h.microStep hb hu) ht
    · cases ht
      exact h

/-! ### The commands -/

theorem Inv.withHost (h : Inv s) (l : List HostAct) : Inv (s.withHost l) := { h with }

theorem Inv.setReply (h : Inv s) (r : Reply) : Inv { s with reply := r } := { h with }

/-- An idle block may set `ERR` as it likes. -/
theorem Inv.setErr (h : Inv s) (hb : s.busy = false) (e : ErrCode) : Inv { s with err := e } :=
  { h with run := fun hb' => by cases hb.symm.trans hb' }

theorem Inv.notConfigured (h : Inv s) (hb : s.busy = false) : Inv (raiseError .notConfigured s) :=
  { h.setErr hb .notConfigured with
    run := fun hb' => by cases hb.symm.trans hb'
    out := fun i hi => absurd hi (Nat.not_lt_zero i) }

theorem isAlnum_of_tagValid {tlen : BitVec 2} {c : CharCode} (h : tagValid tlen c = true) :
    isAlnum c = true := (Bool.and_eq_true_iff.mp h).2

theorem Inv.configure (h : Inv s) (hb : s.busy = false) (tlen : BitVec 2) (c : CharCode) :
    Inv (configure tlen c s) := by
  unfold Machine.configure
  split
  · next hv =>
    exact { h with
      tables := fun _ => ⟨isAlnum_of_tagValid hv, rfl, rfl⟩
      run := fun hb' => by cases hb.symm.trans hb' }
  · exact h.setErr hb .invalidConfiguration

/-- An accepted `ENC` starts with every count at zero (R80). -/
theorem Inv.acceptEnc (h : Inv s) (hc : s.cfgOk = true) : Inv (acceptEnc s) :=
  Running.inv
    { h with
      busy := rfl, cfgOk := hc, err := rfl, outLen := rfl
      pos := Nat.zero_le _
      written := fun i hi => absurd hi (Nat.not_lt_zero i) }
    (fun _ => ⟨rfl, Nat.zero_le _⟩) (fun hd => by cases hd)

/-- An accepted `DEC` starts with every count at zero (R99). -/
theorem Inv.acceptDec (h : Inv s) (hc : s.cfgOk = true) : Inv (acceptDec s) :=
  Running.inv
    { h with
      busy := rfl, cfgOk := hc, err := rfl, outLen := rfl
      pos := Nat.zero_le _
      written := fun i hi => absurd hi (Nat.not_lt_zero i) }
    (fun he => by cases he) (fun _ => ⟨Nat.zero_lt_succ 3, rfl, by simp⟩)

/-- A command keeps the invariant if it does when the block is idle: otherwise it is not accepted (R133). -/
theorem Inv.whenIdle {r : Result} (h : Inv s) (ht : whenIdle s r = .next t)
    (hr : s.busy = false → r = .next t → Inv t) : Inv t := by
  obtain ⟨-, rfl⟩ | ⟨hb, hrt⟩ := whenIdle_cases ht
  · exact h
  · exact hr hb hrt

/-- `ENC` or `DEC` presented at either level: refused while unconfigured (R115), so that the invariant turns on
what is accepted. -/
theorem Inv.start {accepted : Result} (h : Inv s)
    (ht : Machine.whenIdle s
      (if s.cfgOk then accepted else .next (raiseError .notConfigured s)) = .next t)
    (hk : s.cfgOk = true → accepted = .next t → Inv t) : Inv t := by
  refine h.whenIdle ht fun hb ht => ?_
  split at ht
  · next hc => exact hk hc ht
  · cases ht
    exact h.notConfigured hb

theorem Inv.execCfg {tlen : BitVec 2} {c : CharCode} (h : Inv s) (ht : execCfg tlen c s = .next t) :
    Inv t :=
  h.whenIdle ht fun hb ht => by
    cases ht
    exact h.configure hb tlen c

theorem Inv.illegal (h : Inv s)
    (ht : Machine.whenIdle s (.next (raiseError .illegalCommand s)) = .next t) : Inv t :=
  h.whenIdle ht fun hb ht => by
    cases ht
    exact h.setErr hb .illegalCommand

theorem Inv.exec_command {w : BitVec 12} (h : Inv s) (ht : exec (decodeCmd w) s = .next t) : Inv t := by
  obtain ⟨tlen, c, hw⟩ | hw | hw | ⟨low, hw⟩ | ⟨m, low, hw⟩ := decodeCmd_cases w <;> rw [hw] at ht
  · exact h.execCfg ht
  · exact h.start ht fun hc => (h.acceptEnc hc).runCore
  · exact h.start ht fun hc => (h.acceptDec hc).runCore
  · exact h.illegal ht
  · exact h.illegal ht

theorem Inv.issueCmd {w : BitVec 12} (h : Inv s) (ht : issueCmd w s = .next t) : Inv t := by
  unfold Machine.issueCmd at ht
  split at ht
  · exact h.start ht fun hc ht => by
      cases ht
      exact h.acceptEnc hc
  split at ht
  · exact h.start ht fun hc ht => by
      cases ht
      exact h.acceptDec hc
  · exact h.exec_command ht

/-! ### The host's accesses and reset -/

theorem Inv.hostWriteIn (h : Inv s) (i : Nat) (v : BitVec 8) : Inv (hostWriteIn i v s) := by
  unfold Machine.hostWriteIn
  split
  · exact { h with inCanonical := Mem.wf_write h.inCanonical i v }
  · exact h

/-- `IN_LEN` is written while the block is idle, within its range (R18, R134). -/
theorem Inv.hostWriteInLen (h : Inv s) (n : Nat) : Inv (hostWriteInLen n s) := by
  unfold Machine.hostWriteInLen
  split
  · next hw =>
    obtain ⟨hb, hn⟩ := Bool.and_eq_true_iff.mp hw
    exact { h with
      capacity := ⟨h.capacity.1, hn⟩
      run := fun hb' => by simp [show s.busy = true from hb'] at hb }
  · exact h

theorem Inv.resetBlock (h : Inv s) : Inv (resetBlock s) :=
  have ⟨hlawful, _⟩ := h.capacity
  { inv_resetWith hlawful with }

theorem Inv.hostMove {a : HostAct} (h : Inv s) (ht : hostMove a s = .next t) : Inv t := by
  cases a with
  | call w => exact h.exec_command ht
  | issue w => exact h.issueCmd ht
  | wait => exact h.coreMove ht
  | writeIn i v =>
    cases ht
    exact (h.hostWriteIn i v).setReply _
  | writeInLen n =>
    cases ht
    exact (h.hostWriteInLen n).setReply _
  | reset =>
    cases ht
    exact h.resetBlock
  | _ =>
    cases ht
    exact h.setReply _

end

/-- Settles O59, by the step's next move: a micro-step of the core, or an action of the host. -/
theorem stepKeepsTheInvariant : Obligations.StepKeepsTheInvariant := by
  intro s t h ht
  unfold step nextMove at ht
  split at ht
  · exact h.coreMove ht
  · next a rest _ => exact (h.withHost rest).hostMove ht

end Sys2Proof.Machine

/-! ## O41: what the core leaves alone -/

namespace Sys2Proof.Machine

/-- `t` agrees with `s` on what only `CFG`, the host or reset writes: the configuration, the input and the
model's fields for the host (R12, R32, R135). -/
structure CoreFrame (s t : State) : Prop where
  params : t.params = s.params
  tag : t.tag = s.tag
  cfgOk : t.cfgOk = s.cfgOk
  encLut : t.encLut = s.encLut
  decLut : t.decLut = s.decLut
  inLen : t.inLen = s.inLen
  inBuf : t.inBuf = s.inBuf
  host : t.host = s.host
  reply : t.reply = s.reply

theorem CoreFrame.refl (s : State) : CoreFrame s s := by constructor <;> rfl

theorem CoreFrame.trans {s t u : State} (h : CoreFrame s t) (k : CoreFrame t u) : CoreFrame s u where
  params := k.params.trans h.params
  tag := k.tag.trans h.tag
  cfgOk := k.cfgOk.trans h.cfgOk
  encLut := k.encLut.trans h.encLut
  decLut := k.decLut.trans h.decLut
  inLen := k.inLen.trans h.inLen
  inBuf := k.inBuf.trans h.inBuf
  host := k.host.trans h.host
  reply := k.reply.trans h.reply

theorem CoreFrame.storeItems (l : List (BitVec 8)) (s : State) : CoreFrame s (storeItems l s) := by
  constructor <;> rfl

theorem CoreFrame.complete (s : State) : CoreFrame s (complete s) := by constructor <;> rfl

theorem CoreFrame.abort (e : ErrCode) (s : State) : CoreFrame s (abort e s) := by constructor <;> rfl

/-- `op` answers only states in the frame of the one it is run on. -/
def KeepsCoreFrame (op : State → Result) : Prop := ∀ s t, op s = .next t → CoreFrame s t

theorem KeepsCoreFrame.after {k : State → Result} (hk : KeepsCoreFrame k) {r : Result} {s t : State}
    (hr : ∀ u, r = .next u → CoreFrame s u) (h : seq r k = .next t) : CoreFrame s t := by
  obtain ⟨u, hu, ht⟩ := seq_eq_next h
  exact (hr u hu).trans (hk u t ht)

theorem putItems_keepsCoreFrame (l : List (BitVec 8)) : KeepsCoreFrame (putItems l) := by
  intro s t h
  rw [(putItems_eq_next h).1]
  exact .storeItems l s

theorem emitAll_keepsCoreFrame (vs : List Sextet) : KeepsCoreFrame (emitAll vs) := by
  intro s t h
  rw [emitAll_eq_next h]
  exact .storeItems _ s

theorem execEmitD_keepsCoreFrame (v : Sextet) : KeepsCoreFrame (execEmitD v) := by
  intro s t h
  unfold execEmitD at h
  split at h
  · rw [(putItem_eq_next h).2]
    exact .storeItems _ s
  · cases h

theorem execClsDirect_keepsCoreFrame (c : CharCode) : KeepsCoreFrame (execClsDirect c) := by
  intro s t h
  unfold execClsDirect at h
  split at h <;> cases h
  constructor <;> rfl

/-- A micro-operation writes items of `OUT`, or per-call registers, or aborts. -/
theorem runSelected_keepsCoreFrame (i : Instr) : KeepsCoreFrame (runSelected i) := by
  have emptied : KeepsCoreFrame fun t => .next { t with gcnt := 0#3 } := by
    intro s t h
    cases h
    constructor <;> rfl
  have completed : KeepsCoreFrame fun t => .next (complete t) := by
    intro s t h
    cases h
    exact .complete s
  intro s t h
  cases i with
  | pack3 => exact emptied.after (emitAll_keepsCoreFrame _ s) h
  | pack2 => exact completed.after (emitAll_keepsCoreFrame _ s) h
  | pack1 => exact completed.after (emitAll_keepsCoreFrame _ s) h
  | unpack4 => exact emptied.after (putItems_keepsCoreFrame _ s) h
  | unpack3 => exact completed.after (putItems_keepsCoreFrame _ s) h
  | unpack2 => exact completed.after (putItems_keepsCoreFrame _ s) h
  | pack0 | unpack0 => exact completed s t h
  | emitE1 | emitE2 | emitE3 => exact putItems_keepsCoreFrame _ s t h
  | emitD v => exact execEmitD_keepsCoreFrame v s t h
  | clsDirect c => exact execClsDirect_keepsCoreFrame c s t h
  | unpack1 | escdBad | clsInvalid =>
    cases h
    exact .abort _ s
  | noDispatch | clsTag | escd1 | escd2 | escd3 =>
    cases h
    constructor <;> rfl
  | cfg | enc | dec | cfgDefault | illegalOp | illegalOperand => cases h

theorem dispatch_keepsCoreFrame (eoi : Bool) : KeepsCoreFrame (dispatch eoi) := by
  intro s t h
  obtain ⟨i, -, -, hrun⟩ := dispatch_eq_next h
  exact runSelected_keepsCoreFrame i s t hrun

theorem charStep_keepsCoreFrame : KeepsCoreFrame charStep := by
  have dispatched : KeepsCoreFrame fun t => if t.busy then dispatch false t else .next t := by
    intro s t h
    dsimp only at h
    split at h
    · exact dispatch_keepsCoreFrame false s t h
    · cases h
      exact .refl s
  intro s t h
  have advance : CoreFrame s { s with pos := s.pos + 1 } := by constructor <;> rfl
  exact dispatched.after (fun u hu => advance.trans (runSelected_keepsCoreFrame _ _ u hu)) h

theorem endStep_keepsCoreFrame : KeepsCoreFrame endStep := by
  intro s t h
  unfold endStep at h
  split at h
  · cases h
    exact .abort _ s
  · exact dispatch_keepsCoreFrame true s t h

theorem microStep_keepsCoreFrame : KeepsCoreFrame microStep := by
  intro s t h
  have loaded : CoreFrame s (loadOctet s) := by constructor <;> rfl
  unfold microStep at h
  split at h <;> split at h
  · exact loaded.trans (dispatch_keepsCoreFrame false _ t h)
  · exact dispatch_keepsCoreFrame true s t h
  · exact charStep_keepsCoreFrame s t h
  · exact endStep_keepsCoreFrame s t h

theorem runCore_keepsCoreFrame (n : Nat) : KeepsCoreFrame (runCore n) := by
  induction n with
  | zero =>
    intro s t h
    cases h
    exact .refl s
  | succ n ih =>
    intro s t h
    unfold runCore at h
    split at h
    · exact ih.after (microStep_keepsCoreFrame s) h
    · cases h
      exact .refl s

theorem CoreFrame.whenIdle {r : Result} {s t : State} (hr : r = .next t → CoreFrame s t)
    (h : whenIdle s r = .next t) : CoreFrame s t := by
  obtain ⟨-, rfl⟩ | ⟨-, h⟩ := whenIdle_cases h
  · exact .refl t
  · exact hr h

/-- `ENC` and `DEC`: refused while unconfigured, else accepted and run. -/
theorem CoreFrame.operation {n : Nat} {s t u : State} (ha : CoreFrame s u)
    (h : Machine.whenIdle s
      (if s.cfgOk then runCore n u else .next (raiseError .notConfigured s)) = .next t) :
    CoreFrame s t := by
  refine .whenIdle (fun h => ?_) h
  split at h
  · exact ha.trans (runCore_keepsCoreFrame n u t h)
  · cases h
    constructor <;> rfl

/-- Every instruction but `CFG` and its pseudo-command keeps the core's frame. -/
theorem exec_coreFrame {i : Instr} {s t : State} (hi : ∀ tlen c, i.expand ≠ .cfg tlen c)
    (h : exec i s = .next t) : CoreFrame s t := by
  have illegal (h : whenIdle s (.next (raiseError .illegalCommand s)) = .next t) : CoreFrame s t :=
    .whenIdle (fun h => by cases h; constructor <;> rfl) h
  have selected (he : runSelected i s = exec i s) : CoreFrame s t :=
    runSelected_keepsCoreFrame i s t (he.trans h)
  cases i with
  | cfg tlen c => exact absurd rfl (hi tlen c)
  | cfgDefault => exact absurd rfl (hi _ _)
  | enc => exact .operation (by constructor <;> rfl) h
  | dec => exact .operation (by constructor <;> rfl) h
  | illegalOp low => exact illegal h
  | illegalOperand m low => exact illegal h
  | _ => exact selected rfl

theorem configure_cfgOk {s : State} (hc : s.cfgOk = true) (tlen : BitVec 2) (c : CharCode) :
    (configure tlen c s).cfgOk = true := by
  unfold configure
  split
  · rfl
  · exact hc

theorem execCfg_cfgOk {tlen : BitVec 2} {c : CharCode} {s t : State} (h : execCfg tlen c s = .next t)
    (hc : s.cfgOk = true) : t.cfgOk = true := by
  obtain ⟨-, rfl⟩ | ⟨-, h⟩ := whenIdle_cases h
  · exact hc
  · cases h
    exact configure_cfgOk hc tlen c

/-- Settles O41: a form of `CFG` can only set `CFG_OK`, and every other instruction keeps the core's frame. -/
theorem onlyCfgChangesTheConfiguration : Obligations.OnlyCfgChangesTheConfiguration := by
  intro i s t h
  refine ⟨fun hc => ?_, fun hi => ?_⟩
  · cases i with
    | cfg tlen c => exact execCfg_cfgOk h hc
    | cfgDefault => exact execCfg_cfgOk (tlen := 1#2) (c := defaultTag) h hc
    | _ => exact (exec_coreFrame (fun _ _ he => by cases he) h).cfgOk.trans hc
  · have f := exec_coreFrame hi h
    exact ⟨f.tag, f.encLut, f.decLut, f.cfgOk⟩

/-! ## O50: the word `STATUS` -/

theorem statusFields_of_append : ∀ (ok busy : BitVec 1) (err : BitVec 3),
    (ok ++ busy ++ err).extractLsb' 4 1 = ok ∧ (ok ++ busy ++ err).extractLsb' 3 1 = busy ∧
      (ok ++ busy ++ err).extractLsb' 0 3 = err := by
  decide

/-- Settles O50: the fields of the concatenation are read back, and a read of `STATUS` is one action. -/
theorem statusWordLayout : Obligations.StatusWordLayout := by
  refine ⟨fun s => ?_, fun s rest hs => ?_, rfl⟩
  · obtain ⟨hok, hbusy, herr⟩ := statusFields_of_append (flagBit s.cfgOk) (flagBit s.busy) s.err.bits
    refine ⟨hok, hbusy, herr.trans ?_⟩
    cases s.err <;> rfl
  · unfold step nextMove
    rw [hs]
    rfl

end Sys2Proof.Machine

/-! ## O48: the length of encoded text -/

namespace Sys2Proof.Machine

/-- Is the symbol of `v` an escape, of two characters (R47)? -/
def isEscaped (v : Sextet) : Bool := decide (61 ≤ v.toNat)

theorem encTable_chars_length (tag : CharCode) (enc : EncLut) (v : Sextet) :
    (encTable tag enc v).chars.length = 1 + if isEscaped v then 1 else 0 := by
  unfold encTable isEscaped
  split
  · next h => simp [Symbol.chars, Nat.not_le.mpr h]
  · next h => simp [Symbol.chars, Nat.not_lt.mp h]

theorem textOf_length (tag : CharCode) (enc : EncLut) (vs : List Sextet) :
    (textOf tag enc vs).length = vs.length + vs.countP isEscaped := by
  induction vs with
  | nil => rfl
  | cons v vs ih =>
    rw [textOf_cons, List.length_append, encTable_chars_length, ih, List.length_cons, List.countP_cons]
    omega

/-- Whole groups of 3 octets give 4 sextets each (R85). -/
theorem nSym_groups (q r : Nat) : nSym (3 * q + r) = 4 * q + nSym r := by
  unfold nSym
  rw [show (3 * q + r) / 3 = q + r / 3 by omega, show (3 * q + r) % 3 = r % 3 by omega]
  omega

/-- Whole groups of 3 octets give at most 8 characters each (R86). -/
theorem encMaxLen_groups (q r : Nat) : encMaxLen (3 * q + r) = 8 * q + encMaxLen r := by
  unfold encMaxLen
  rw [show (3 * q + r) / 3 = q + r / 3 by omega, show (3 * q + r) % 3 = r % 3 by omega]
  omega

theorem nSym_add_three (n : Nat) : nSym (n + 3) = nSym n + 4 := by
  rw [Nat.add_comm n 3, Nat.add_comm (nSym n)]
  exact nSym_groups 1 n

theorem encMaxLen_add_three (n : Nat) : encMaxLen (n + 3) = encMaxLen n + 8 := by
  rw [Nat.add_comm n 3, Nat.add_comm (encMaxLen n)]
  exact encMaxLen_groups 1 n

theorem sextets_length (b : List Octet) : (sextets b).length = nSym b.length := by
  induction b using sextets.induct with
  | case1 => rfl
  | case2 a => simp [sextets, pack1, nSym]
  | case3 a b => simp [sextets, pack2, nSym]
  | case4 a b c rest ih =>
    simp only [sextets, List.length_append, List.length_cons, ih, nSym_add_three]
    exact Nat.add_comm _ _

theorem encodeText_length (tag : CharCode) (enc : EncLut) (b : List Octet) :
    (encodeText tag enc b).length = nSym b.length + (sextets b).countP isEscaped := by
  rw [encodeText, textOf_length, sextets_length]

theorem escapes_le_of_last_direct (vs : List Sextet) {v : Sextet} (h : isEscaped v = false) :
    (vs ++ [v]).countP isEscaped ≤ vs.length := by
  rw [List.countP_append, List.countP_singleton, h]
  exact List.countP_le_length

/-- The unshifted last sextet of a 1-octet tail is below 4, so no escape (R78). -/
theorem escapes_pack1_le (a : Octet) : (pack1 a).countP isEscaped ≤ 1 :=
  have last : ∀ a : Octet, isEscaped ((a &&& 3#8).setWidth 6) = false := by decide
  escapes_le_of_last_direct [_] (last a)

/-- The unshifted last sextet of a 2-octet tail is below 16, so no escape (R77). -/
theorem escapes_pack2_le (a b : Octet) : (pack2 a b).countP isEscaped ≤ 2 :=
  have last : ∀ b : Octet, isEscaped ((b &&& 0xF#8).setWidth 6) = false := by decide
  escapes_le_of_last_direct [_, _] (last b)

/-- Every sextet of a full group may be an escape, and every sextet of a tail but its last (R86). -/
theorem nSym_add_escapes_le (b : List Octet) :
    nSym b.length + (sextets b).countP isEscaped ≤ encMaxLen b.length := by
  induction b using sextets.induct with
  | case1 => exact Nat.le_refl 0
  | case2 a => simpa [sextets, nSym, encMaxLen] using Nat.add_le_add_left (escapes_pack1_le a) 2
  | case3 a b => simpa [sextets, nSym, encMaxLen] using Nat.add_le_add_left (escapes_pack2_le a b) 3
  | case4 a b c rest ih =>
    have group : (pack3 a b c).countP isEscaped ≤ 4 := List.countP_le_length
    simp only [sextets, List.countP_append, List.length_cons, nSym_add_three, encMaxLen_add_three]
    omega

theorem encodeText_length_le (tag : CharCode) (enc : EncLut) (b : List Octet) :
    (encodeText tag enc b).length ≤ encMaxLen b.length := by
  rw [encodeText_length]
  exact nSym_add_escapes_le b

/-- Octets of zeros give no escape: the lower bound is reached (R86). -/
theorem escapes_zeros : ∀ n, (sextets (List.replicate n 0#8)).countP isEscaped = 0
  | 0 => rfl
  | 1 => by decide
  | 2 => by decide
  | n + 3 => by
    have group : (pack3 0#8 0#8 0#8).countP isEscaped = 0 := by decide
    simp only [List.replicate_succ, sextets, List.countP_append, group, escapes_zeros n]

/-- Octets of ones give every escape there can be: the upper bound is reached (R86). -/
theorem nSym_add_escapes_ones :
    ∀ n, nSym n + (sextets (List.replicate n 0xFF#8)).countP isEscaped = encMaxLen n
  | 0 => rfl
  | 1 => by decide
  | 2 => by decide
  | n + 3 => by
    have group : (pack3 0xFF#8 0xFF#8 0xFF#8).countP isEscaped = 4 := by decide
    have ih := nSym_add_escapes_ones n
    simp only [List.replicate_succ, sextets, List.countP_append, group, nSym_add_three,
      encMaxLen_add_three]
    omega

/-- Settles O48: a text has a character per sextet and one more per escape, and the escapes are counted group
by group. -/
theorem encodedLength : Obligations.EncodedLength := by
  intro tag enc b n
  refine ⟨sextets_length b, encodeText_length tag enc b, ?_, encodeText_length_le tag enc b, ?_, ?_⟩
  · rw [encodeText_length]
    exact Nat.le_add_right _ _
  · rw [encodeText_length, List.length_replicate, escapes_zeros, Nat.add_zero]
  · rw [encodeText_length, List.length_replicate, nSym_add_escapes_ones]

end Sys2Proof.Machine

/-! ## O60: no good state stops -/

namespace Sys2Proof.Machine

/-! ### The room `OUT` has -/

theorem le_encMaxLen (n : Nat) : n ≤ encMaxLen n := by
  unfold encMaxLen
  split_ifs <;> omega

theorem encMaxLen_mono {m n : Nat} (h : m ≤ n) : encMaxLen m ≤ encMaxLen n := by
  unfold encMaxLen
  split_ifs <;> omega

theorem decMaxLen_le (n : Nat) : decMaxLen n ≤ n := by
  unfold decMaxLen
  split_ifs <;> omega

/-- What a text of the whole input needs, `OUT` has (R42). -/
theorem outRoom_of_le_encMaxLen {s : State} {k : Nat} (h : CapacityOk s) (hk : k ≤ encMaxLen s.inLen) :
    outRoom s.params k = true := by
  obtain ⟨hlawful, hlen⟩ := h
  unfold capacityLawful at hlawful
  unfold inLenHolds at hlen
  unfold outRoom
  cases hout : s.params.maxOut with
  | none => rfl
  | some m =>
    cases hin : s.params.maxIn with
    | none => simp [hin, hout] at hlawful
    | some n =>
      simp only [hin, hout, decide_eq_true_eq] at hlawful hlen
      exact decide_eq_true (hk.trans ((encMaxLen_mono hlen).trans hlawful))

/-- The most items a dispatched group of `g` writes to `OUT` (R86, R107). -/
def maxItems : Mode → Nat → Nat
  | .enc => encMaxLen
  | .dec => decMaxLen

/-- The items of a dispatch are within the bound for its group. -/
theorem GroupSelects.itemsWritten_length_le {m : Mode} {eoi : Bool} {g : BitVec 3} {i : Instr} {s : State}
    {items : List (BitVec 8)} (h : GroupSelects m eoi g i) (hi : itemsWritten i s = some items) :
    items.length ≤ maxItems m g.toNat := by
  cases h with
  | noDispatch => cases hi; exact Nat.zero_le _
  | pack3 =>
    cases hi
    exact textOf_length_le _ _ _
  | pack2 =>
    cases hi
    have bound := encodeText_length_le s.tag s.encLut [s.eb[0], s.eb[1]]
    rwa [encodeText, sextets] at bound
  | pack1 =>
    cases hi
    have bound := encodeText_length_le s.tag s.encLut [s.eb[0]]
    rwa [encodeText, sextets] at bound
  | unpack1 => cases hi
  | unpack4 | unpack3 | unpack2 | pack0 | unpack0 =>
    cases hi
    exact Nat.le_refl _

/-! ### Operations that answer a next state -/

/-- `r` is a next state: neither a fault nor a refusal. -/
def Answers (r : Result) : Prop := ∃ t, r = .next t

theorem answers_next (s : State) : Answers (.next s) := ⟨s, rfl⟩

theorem Answers.seq {r : Result} {k : State → Result} (h : Answers r)
    (hk : ∀ u, r = .next u → Answers (k u)) : Answers (seq r k) := by
  obtain ⟨u, rfl⟩ := h
  exact hk u rfl

theorem Answers.whenIdle {s : State} {r : Result} (h : s.busy = false → Answers r) :
    Answers (whenIdle s r) := by
  cases hb : s.busy with
  | true =>
    rw [whenIdle_busy r hb]
    exact answers_next s
  | false =>
    rw [whenIdle_idle r hb]
    exact h hb

/-- The selectors that occur: those of a group with room or at the end of the input short of full, and that of
a full group before it (R54). -/
theorem decodeGsel_occurs {s : State} {eoi : Bool}
    (h : s.gcnt.toNat < s.mode.groupSize ∨ eoi = false ∧ s.gcnt.toNat = s.mode.groupSize) :
    ∃ i, decodeGsel (gsel s eoi) = .ok i := by
  unfold gsel
  generalize s.mode = m, s.gcnt = g at h
  have occurs : (decodeGsel (m.bit ++ (if eoi then 1#1 else 0#1) ++ g)).toBool = true := by
    revert g
    cases m <;> cases eoi <;> decide
  cases hd : decodeGsel (m.bit ++ (if eoi then 1#1 else 0#1) ++ g) with
  | ok i => exact ⟨i, rfl⟩
  | error e => rw [hd] at occurs; cases occurs

/-- A selected group operation answers if `OUT` has room for its items. -/
theorem GroupSelects.exec_answers {m : Mode} {eoi : Bool} {g : BitVec 3} {i : Instr} {s : State}
    (h : GroupSelects m eoi g i)
    (hroom : ∀ items, itemsWritten i s = some items → outRoom s.params (s.wpos + items.length) = true) :
    Answers (exec i s) := by
  have emitted {vs : List Sextet} {k : State → Result}
      (hvs : outRoom s.params (s.wpos + (textOf s.tag s.encLut vs).length) = true)
      (hk : ∀ u, Answers (k u)) : Answers (Machine.seq (emitAll vs s) k) :=
    .seq ⟨_, emitAll_room hvs⟩ fun u _ => hk u
  have put {l : List (BitVec 8)} {k : State → Result}
      (hl : outRoom s.params (s.wpos + l.length) = true)
      (hk : ∀ u, Answers (k u)) : Answers (Machine.seq (putItems l s) k) :=
    .seq ⟨_, putItems_room hl⟩ fun u _ => hk u
  cases h with
  | pack3 | pack2 | pack1 => exact emitted (hroom _ rfl) fun _ => answers_next _
  | unpack4 | unpack3 | unpack2 => exact put (hroom _ rfl) fun _ => answers_next _
  | noDispatch | pack0 | unpack1 | unpack0 => exact answers_next _

theorem dispatch_answers {s : State} {eoi : Bool}
    (hocc : s.gcnt.toNat < s.mode.groupSize ∨ eoi = false ∧ s.gcnt.toNat = s.mode.groupSize)
    (hroom : outRoom s.params (s.wpos + maxItems s.mode s.gcnt.toNat) = true) :
    Answers (dispatch eoi s) := by
  obtain ⟨i, hi⟩ := decodeGsel_occurs hocc
  have hsel := groupSelects_of_gsel hi
  rw [dispatch_ok hi]
  exact hsel.exec_answers fun items hitems =>
    outRoom_of_le hroom (Nat.add_le_add_left (hsel.itemsWritten_length_le hitems) _)

/-- A character is selected as direct only if it has a table entry, so that its selection never stops. -/
theorem selectedChar_answers (c : CharCode) (s : State) : Answers (runSelected (selectChar c s) s) := by
  unfold selectChar decodeEscDigit decodeClassify
  split
  · split
    · exact answers_next _
    split
    · exact answers_next _
    split
    · exact answers_next _
    · exact answers_next _
  · split
    · exact answers_next _
    split
    · next hd => exact ⟨_, if_pos hd⟩
    · exact answers_next _

/-! ### The core -/

section
variable {s : State}

/-- What a running encode has written, and what its group with `k` more octets can bring, is within the text of
`POS + k` octets (R86). -/
theorem EncRunOk.groupRoom (hc : EncRunOk s) {k : Nat} :
    s.wpos + encMaxLen (s.gcnt.toNat + k) ≤ encMaxLen (s.pos + k) := by
  obtain ⟨hg, hw⟩ := hc
  have groups := encMaxLen_groups (s.pos / 3) (s.gcnt.toNat + k)
  rw [show 3 * (s.pos / 3) + (s.gcnt.toNat + k) = s.pos + k by omega] at groups
  omega

/-- A running decode has room for its group: `OUT` has as many items as `IN` (R42). -/
theorem decode_groupRoom (hw : s.wpos % 3 = 0) (hcount : 4 * (s.wpos / 3) + s.gcnt.toNat ≤ s.pos)
    (hp : s.pos ≤ s.inLen) : s.wpos + decMaxLen s.gcnt.toNat ≤ encMaxLen s.inLen := by
  have := decMaxLen_le s.gcnt.toNat
  have := le_encMaxLen s.inLen
  omega

theorem Inv.encode_answers (h : Inv s) (hb : s.busy = true) (hm : s.mode = .enc) :
    Answers (if s.pos < s.inLen then dispatch false (loadOctet s) else dispatch true s) := by
  have r := h.running hb
  have hc := h.encRunOk hb hm
  have ⟨hg, _⟩ := hc
  split
  · next hp =>
    have hg1 : (s.gcnt + 1#3).toNat = s.gcnt.toNat + 1 := toNat_gcnt_add_one (by omega)
    refine dispatch_answers ?_ (outRoom_of_le_encMaxLen (s := loadOctet s) h.capacity ?_)
    · simp only [loadOctet_gcnt, loadOctet_mode, hm, hg1, Mode.groupSize, true_and]
      omega
    · simp only [loadOctet_gcnt, loadOctet_mode, loadOctet_wpos, loadOctet_inLen, hm, hg1, maxItems]
      exact hc.groupRoom.trans (encMaxLen_mono hp)
  · refine dispatch_answers ?_ (outRoom_of_le_encMaxLen h.capacity ?_)
    · simp only [hm, Mode.groupSize]
      omega
    · rw [hm]
      exact (hc.groupRoom (k := 0)).trans (encMaxLen_mono r.pos)

theorem DecLoaded.dispatch_answers (d : DecLoaded s) : Answers (Machine.dispatch false s) := by
  have hcount := d.count
  refine Machine.dispatch_answers ?_ (outRoom_of_le_encMaxLen d.capacity ?_)
  · rw [d.mode]
    have := d.group
    simp only [Mode.groupSize, true_and]
    omega
  · rw [d.mode]
    exact decode_groupRoom d.wholeGroups (by omega) d.pos

theorem Inv.charStep_answers (h : Inv s) (hb : s.busy = true) (hm : s.mode = .dec)
    (hp : s.pos < s.inLen) : Answers (Machine.charStep s) := by
  refine .seq (selectedChar_answers (coreReadIn s s.pos) { s with pos := s.pos + 1 }) fun u hu => ?_
  obtain ⟨-, hidle⟩ | d := (h.running hb).decode_char hm (h.decRunOk hb hm) hp hu
  · rw [hidle]
    exact answers_next u
  · rw [d.busy]
    exact d.dispatch_answers

theorem Inv.endStep_answers (h : Inv s) (hb : s.busy = true) (hm : s.mode = .dec) :
    Answers (Machine.endStep s) := by
  obtain ⟨hg, hw, hcount⟩ := h.decRunOk hb hm
  unfold Machine.endStep
  split
  · exact answers_next _
  · refine dispatch_answers (.inl (by rwa [hm])) (outRoom_of_le_encMaxLen h.capacity ?_)
    rw [hm]
    exact decode_groupRoom hw (by omega) (h.running hb).pos

theorem Inv.microStep_answers (h : Inv s) (hb : s.busy = true) : Answers (Machine.microStep s) := by
  unfold Machine.microStep
  cases hm : s.mode with
  | enc => exact h.encode_answers hb hm
  | dec =>
    dsimp only
    split
    · next hp => exact h.charStep_answers hb hm hp
    · exact h.endStep_answers hb hm

theorem Inv.coreMove_answers (h : Inv s) : Answers (Machine.coreMove s) := by
  unfold Machine.coreMove
  split
  · next hb => exact h.microStep_answers hb
  · exact answers_next s

theorem Inv.runCore_answers (h : Inv s) (n : Nat) : Answers (Machine.runCore n s) := by
  induction n generalizing s with
  | zero => exact answers_next s
  | succ n ih =>
    unfold Machine.runCore
    split
    · next hb => exact (h.microStep_answers hb).seq fun u hu => ih (h.microStep hb hu)
    · exact answers_next s

/-! ### The commands and the host -/

/-- `ENC` or `DEC` presented at either level answers if it does once accepted. -/
theorem start_answers {accepted : Result} (hk : s.cfgOk = true → Answers accepted) :
    Answers (Machine.whenIdle s (if s.cfgOk then accepted else .next (raiseError .notConfigured s))) := by
  refine .whenIdle fun _ => ?_
  split
  · next hc => exact hk hc
  · exact answers_next _

theorem Inv.exec_command_answers (h : Inv s) (w : BitVec 12) : Answers (exec (decodeCmd w) s) := by
  obtain ⟨tlen, c, hw⟩ | hw | hw | ⟨low, hw⟩ | ⟨m, low, hw⟩ := decodeCmd_cases w <;> rw [hw]
  · exact .whenIdle fun _ => answers_next _
  · exact start_answers fun hc => (h.acceptEnc hc).runCore_answers _
  · exact start_answers fun hc => (h.acceptDec hc).runCore_answers _
  · exact .whenIdle fun _ => answers_next _
  · exact .whenIdle fun _ => answers_next _

theorem Inv.issueCmd_answers (h : Inv s) (w : BitVec 12) : Answers (Machine.issueCmd w s) := by
  unfold Machine.issueCmd
  split
  · exact start_answers fun _ => answers_next _
  split
  · exact start_answers fun _ => answers_next _
  · exact h.exec_command_answers w

theorem Inv.hostMove_answers (h : Inv s) (a : HostAct) : Answers (Machine.hostMove a s) := by
  cases a with
  | call w => exact h.exec_command_answers w
  | issue w => exact h.issueCmd_answers w
  | wait => exact h.coreMove_answers
  | _ => exact answers_next _

end

/-- Settles O60: the invariant's counts give every dispatch a selector that occurs and its room. -/
theorem goodStatesNeverStop : Obligations.GoodStatesNeverStop := by
  intro s h
  show Answers (step s)
  unfold step nextMove
  split
  · exact h.coreMove_answers
  · next a rest _ => exact (h.withHost rest).hostMove_answers a

end Sys2Proof.Machine

/-! ## O29: the items a form writes -/

namespace Sys2Proof.Machine

/-- A direct symbol written is the encode table's symbol of its value. -/
theorem execEmitD_eq_next {v : Sextet} {s t : State} (h : execEmitD v s = .next t) :
    t = storeItems (encTable s.tag s.encLut v).chars s := by
  unfold execEmitD at h
  split at h
  · next c hc =>
    obtain ⟨hv, rfl⟩ := Vector.getElem?_eq_some_iff.mp hc
    rw [encTable, dif_pos hv]
    exact (putItem_eq_next h).2
  · cases h

theorem configure_outBuf (tlen : BitVec 2) (c : CharCode) (s : State) :
    (configure tlen c s).outBuf = s.outBuf := by
  unfold configure
  split <;> rfl

/-- A command that is one change of state leaves `OUT` as that change does. -/
theorem outBuf_of_whenIdle {s t u : State} (hu : u.outBuf = s.outBuf)
    (h : whenIdle s (.next u) = .next t) : t.outBuf = s.outBuf := by
  obtain ⟨-, rfl⟩ | ⟨-, h⟩ := whenIdle_cases h
  · rfl
  · cases h
    exact hu

/-- What a form leaves in `OUT`: the items it writes, at `WPOS` (R34, R79, R81, R82, R100, R101). -/
theorem exec_outBuf {i : Instr} {s t : State} {items : List (BitVec 8)}
    (hi : itemsWritten i s = some items) (h : exec i s = .next t) :
    t.outBuf = s.outBuf.writeAll s.wpos items := by
  have emitted {vs : List Sextet} {k : State → Result}
      (hk : ∀ u v, k u = .next v → v.outBuf = u.outBuf) (h : seq (emitAll vs s) k = .next t) :
      t.outBuf = s.outBuf.writeAll s.wpos (textOf s.tag s.encLut vs) := by
    obtain ⟨u, hu, ht⟩ := seq_eq_next h
    rw [hk u t ht, emitAll_eq_next hu, storeItems_outBuf]
  have put {l : List (BitVec 8)} {k : State → Result}
      (hk : ∀ u v, k u = .next v → v.outBuf = u.outBuf) (h : seq (putItems l s) k = .next t) :
      t.outBuf = s.outBuf.writeAll s.wpos l := by
    obtain ⟨u, hu, ht⟩ := seq_eq_next h
    rw [hk u t ht, (putItems_eq_next hu).1, storeItems_outBuf]
  cases i with
  | cfg | cfgDefault =>
    cases hi
    exact outBuf_of_whenIdle (configure_outBuf _ _ s) h
  | illegalOp | illegalOperand =>
    cases hi
    exact outBuf_of_whenIdle (u := raiseError .illegalCommand s) rfl h
  | pack3 | pack2 | pack1 =>
    cases hi
    exact emitted (fun u v hk => by cases hk; rfl) h
  | unpack4 | unpack3 | unpack2 =>
    cases hi
    exact put (fun u v hk => by cases hk; rfl) h
  | emitE1 | emitE2 | emitE3 =>
    cases hi
    exact congrArg State.outBuf (putItems_eq_next h).1
  | emitD v =>
    cases hi
    rw [execEmitD_eq_next h, storeItems_outBuf]
  | clsDirect c =>
    cases hi
    obtain ⟨-, h⟩ | ⟨-, h⟩ := ite_eq_iff.mp h <;> cases h
    rfl
  | pack0 | unpack0 | noDispatch | escd1 | escd2 | escd3 | clsTag =>
    cases hi
    cases h
    rfl
  | enc | dec | unpack1 | escdBad | clsInvalid => cases hi

/-- Settles O29: the buffer is the old one with the items written, read back index by index. -/
theorem storingFormsChangeOnlyTheirItems : Obligations.StoringFormsChangeOnlyTheirItems := by
  intro i s t items hi h a
  rw [exec_outBuf hi h, Mem.read_writeAll]

end Sys2Proof.Machine

/-! ## O42: the input -/

namespace Sys2Proof.Machine

/-- `t` agrees with `s` on what only the host or reset writes: the input, the parameters and the model's fields
for the host (R32). -/
structure InputFrame (s t : State) : Prop where
  inLen : t.inLen = s.inLen
  inBuf : t.inBuf = s.inBuf
  params : t.params = s.params
  host : t.host = s.host
  reply : t.reply = s.reply

theorem CoreFrame.inputFrame {s t : State} (f : CoreFrame s t) : InputFrame s t := { f with }

theorem configure_inputFrame (tlen : BitVec 2) (c : CharCode) (s : State) :
    InputFrame s (configure tlen c s) := by
  unfold configure
  split <;> constructor <;> rfl

theorem execCfg_inputFrame {tlen : BitVec 2} {c : CharCode} {s t : State}
    (h : execCfg tlen c s = .next t) : InputFrame s t := by
  obtain ⟨-, rfl⟩ | ⟨-, h⟩ := whenIdle_cases h
  · exact (CoreFrame.refl t).inputFrame
  · cases h
    exact configure_inputFrame tlen c s

/-- A form of `CFG` writes the configuration alone, and every other instruction keeps the core's frame. -/
theorem exec_inputFrame {i : Instr} {s t : State} (h : exec i s = .next t) : InputFrame s t := by
  cases i with
  | cfg tlen c => exact execCfg_inputFrame h
  | cfgDefault => exact execCfg_inputFrame (tlen := 1#2) (c := defaultTag) h
  | _ => exact (exec_coreFrame (fun _ _ he => by cases he) h).inputFrame

/-- Settles O42: `IN` is the same buffer, so every item reads as before. -/
theorem instructionsLeaveTheInputAlone : Obligations.InstructionsLeaveTheInputAlone := by
  intro i s t h
  have f := exec_inputFrame h
  exact ⟨f.inLen, fun a => by rw [f.inBuf], f.params, f.host, f.reply⟩

end Sys2Proof.Machine

/-! ## O21: the order of the bits in a group -/

namespace Sys2Proof.Machine

/-- Settles O21: bit by bit, each sextet or octet is its field of the group's 24-bit word. -/
theorem packingIsBigEndian : Obligations.PackingIsBigEndian := by
  refine ⟨fun a b c => ?_, fun b0 b1 b2 b3 => ?_⟩
  · simp only [pack3, List.cons.injEq, and_true]
    refine ⟨?_, ?_, ?_, ?_⟩
    all_goals
      ext i hi
      simp only [BitVec.getElem_extractLsb', BitVec.getLsbD_append]
      interval_cases i <;> simp
  · simp only [unpack4, firstOctet, List.cons.injEq, and_true]
    refine ⟨?_, ?_, ?_⟩
    all_goals
      ext i hi
      simp only [BitVec.getElem_extractLsb', BitVec.getLsbD_append]
      interval_cases i <;> simp

end Sys2Proof.Machine

/-! ## O51, O52, O53: the host's accesses -/

namespace Sys2Proof.Machine

/-- The host's next action is the next move (log 2). -/
theorem step_hostAct {s : State} {a : HostAct} {rest : List HostAct} (h : s.host = a :: rest) :
    step s = hostMove a (s.withHost rest) := by
  unfold step nextMove
  rw [h]
  rfl

section
variable {s : State} {i n a : Nat} {rest : List HostAct}

/-! ### Reads -/

theorem hostReadIn_idle (hb : s.busy = false) :
    hostReadIn s i = if i < s.inLen then s.inBuf.read i else none := by
  simp [hostReadIn, hb]

theorem hostReadOut_idle (hb : s.busy = false) :
    hostReadOut s i = if i < s.outLen then s.outBuf.read i else none := by
  simp [hostReadOut, hb]

theorem step_readIn (h : s.host = .readIn i :: rest) :
    step s = .next { s with host := rest, reply := replyItem (hostReadIn s i) } := step_hostAct h

theorem step_readOut (h : s.host = .readOut i :: rest) :
    step s = .next { s with host := rest, reply := replyItem (hostReadOut s i) } := step_hostAct h

theorem step_readLut (h : s.host = .readLut a :: rest) :
    step s = .next { s with host := rest, reply := replyItem (hostReadLut s a) } := step_hostAct h

theorem replyCount_idle (hb : s.busy = false) : replyCount s n = .count n := by
  simp [replyCount, hb]

end

/-- Settles O51: the answer of each read while the block is idle. -/
theorem hostReadsWithinBounds : Obligations.HostReadsWithinBounds := by
  intro s i rest hb
  refine ⟨fun h => ⟨fun v hi hv => ?_, fun hi => ?_⟩, fun h => ⟨fun v hi hv => ?_, fun hi => ?_⟩,
    fun h => ?_, fun h => ?_⟩
  · rw [step_readIn h, hostReadIn_idle hb, if_pos hi, hv, replyItem]
  · rw [step_readIn h, hostReadIn_idle hb, if_neg (Nat.not_lt.mpr hi), replyItem]
  · rw [step_readOut h, hostReadOut_idle hb, if_pos hi, hv, replyItem]
  · rw [step_readOut h, hostReadOut_idle hb, if_neg (Nat.not_lt.mpr hi), replyItem]
  · rw [← replyCount_idle (s := s) hb]
    exact step_hostAct h
  · rw [← replyCount_idle (s := s) hb]
    exact step_hostAct h

/-! ### The `LUT` space -/

theorem lutItem_tag (s : State) : lutItem s 0 = some s.tag := rfl

theorem lutItem_decLut (s : State) (c : CharCode) :
    lutItem s (1 + c.toNat) = some (s.decLut[c.toNat]'c.isLt) := by
  have hc := c.isLt
  rw [lutItem, if_neg (by omega), if_pos (by omega), Nat.add_sub_cancel_left,
    Vector.getElem?_eq_getElem c.isLt]

theorem lutItem_encLut (s : State) (v : Fin 61) : lutItem s (257 + v.val) = some s.encLut[v] := by
  rw [lutItem, if_neg (by omega), if_neg (by omega), Nat.add_sub_cancel_left,
    Vector.getElem?_eq_getElem v.isLt]
  rfl

theorem lutItem_beyond (s : State) {off : Nat} (h : 318 ≤ off) : lutItem s off = none := by
  rw [lutItem, if_neg (by omega), if_neg (by omega), Vector.getElem?_eq_none (by omega)]

theorem hostReadLut_configured {s : State} (hb : s.busy = false) (hc : s.cfgOk = true) (a : Nat) :
    hostReadLut s a =
      if s.params.lutBase ≤ a then lutItem s (a - s.params.lutBase) else none := by
  simp [hostReadLut, hb, hc]

/-- The item at an offset from `LUT_BASE`. -/
theorem hostReadLut_offset {s : State} (hb : s.busy = false) (hc : s.cfgOk = true) (off : Nat) :
    hostReadLut s (s.params.lutBase + off) = lutItem s off := by
  rw [hostReadLut_configured hb hc, if_pos (Nat.le_add_right _ _), Nat.add_sub_cancel_left]

/-- Settles O52: the three regions of the space by their offsets, and none beyond them. -/
theorem lutSpaceMap : Obligations.LutSpaceMap := by
  intro s hb
  refine ⟨fun hc => ⟨?_, fun c => ?_, fun v => ?_, fun a ha => ?_⟩, fun hc a => ?_, fun a rest h => ?_,
    fun a v rest h => ?_⟩
  · exact (hostReadLut_offset hb hc 0).trans (lutItem_tag s)
  · rw [Nat.add_assoc, hostReadLut_offset hb hc, lutItem_decLut]
  · rw [Nat.add_assoc, hostReadLut_offset hb hc, lutItem_encLut]
  · rw [hostReadLut_configured hb hc]
    split
    · exact lutItem_beyond s (by omega)
    · rfl
  · simp [hostReadLut, hc]
  · exact step_readLut h
  · exact step_hostAct h

/-! ### Writes -/

/-- A write of an item lands if its index is one of `IN` (R30, R36). -/
theorem hostWriteIn_idle {s : State} (hb : s.busy = false) (i : Nat) (v : BitVec 8) :
    hostWriteIn i v s =
      if inHolds s.params i then { s with inBuf := s.inBuf.write i v } else s := by
  simp [hostWriteIn, hb]

/-- A write of `IN_LEN` lands if the register can hold the number (R18; log 15). -/
theorem hostWriteInLen_idle {s : State} (hb : s.busy = false) (n : Nat) :
    hostWriteInLen n s = { s with inLen := if inLenHolds s.params n then n else s.inLen } := by
  cases hn : inLenHolds s.params n with
  | true => simp [hostWriteInLen, hb, hn]
  | false =>
    simp only [hostWriteInLen, hn, Bool.and_false, Bool.false_eq_true, if_false]

/-- Settles O53: `IN` and `IN_LEN` take what they can hold, and every other write changes the answer alone. -/
theorem hostWritesOnlyTheInput : Obligations.HostWritesOnlyTheInput := by
  intro s rest hb
  have hb' : (s.withHost rest).busy = false := hb
  refine ⟨fun i v h => ⟨fun hi => ?_, fun hi => ?_⟩, fun n h => ?_, fun a ha h => ?_⟩
  · have written : hostWriteIn i v (s.withHost rest) =
        { s.withHost rest with inBuf := s.inBuf.write i v } :=
      (hostWriteIn_idle hb' i v).trans (if_pos hi)
    rw [step_hostAct h, hostMove, written]
    exact ⟨_, rfl, rfl, Mem.read_write_same _ _ _, fun j hj => Mem.read_write_other _ _ hj⟩
  · have dropped : hostWriteIn i v (s.withHost rest) = s.withHost rest :=
      (hostWriteIn_idle hb' i v).trans (if_neg (Bool.eq_false_iff.mp hi))
    rw [step_hostAct h, hostMove, dropped]
    rfl
  · rw [step_hostAct h, hostMove, hostWriteInLen_idle hb']
    rfl
  · rw [step_hostAct h]
    obtain ⟨i, v, rfl | rfl⟩ | ⟨n, rfl⟩ | ⟨w, rfl⟩ := ha <;> rfl

end Sys2Proof.Machine

/-! ## O1 to O6, O56: the encodings -/

namespace Sys2Proof.Machine

/-! ### Command words -/

theorem bitVec_append_inj_iff {v w : Nat} {a a' : BitVec v} {b b' : BitVec w} :
    a ++ b = a' ++ b' ↔ a = a' ∧ b = b' := by
  refine ⟨fun h => ⟨?_, ?_⟩, fun ⟨ha, hb⟩ => by rw [ha, hb]⟩
  · simpa only [BitVec.extractLsb'_append_eq_left] using congrArg (·.extractLsb' w v) h
  · simpa only [BitVec.extractLsb'_append_eq_right] using congrArg (·.extractLsb' 0 w) h

/-- The mask of the rows of `CFG` and `ILLEGAL` keeps the field `OP` (R52, R53). -/
theorem opMask_append (op : BitVec 2) (low : BitVec 10) : (op ++ low) &&& 0xC00#12 = op ++ 0#10 := by
  have mask : 0xC00#12 = BitVec.allOnes 2 ++ 0#10 := rfl
  rw [mask, BitVec.and_append, BitVec.and_allOnes, BitVec.and_zero]

/-- The mask of the rows of `ENC` and `DEC` keeps the whole word (R52). -/
theorem wordMask (w : BitVec 12) : w &&& 0xFFF#12 = w := BitVec.and_allOnes

/-- The command decoder by the fields `OP` and `CMD[9:0]` of the word (R52, R53). -/
theorem decodeCmd_append (op : BitVec 2) (low : BitVec 10) :
    decodeCmd (op ++ low) =
      if op = 0#2 then .cfg (low.extractLsb' 8 2) (low.extractLsb' 0 8)
      else if op = 1#2 ∧ low = 0#10 then .enc
      else if op = 2#2 ∧ low = 0#10 then .dec
      else if op = 3#2 then .illegalOp low
      else if op = 1#2 then .illegalOperand .enc low
      else .illegalOperand .dec low := by
  have word (op' : BitVec 2) (low' : BitVec 10) :
      op ++ low = op' ++ low' ↔ op = op' ∧ low = low' := bitVec_append_inj_iff
  have opField (op' : BitVec 2) : op ++ 0#10 = op' ++ 0#10 ↔ op = op' := BitVec.append_left_inj _
  unfold decodeCmd
  rw [opMask_append, wordMask, BitVec.extractLsb'_append_eq_right,
    BitVec.extractLsb'_append_eq_of_add_le (by decide), BitVec.extractLsb'_append_eq_of_add_le (by decide)]
  simp only [show 0x000#12 = 0#2 ++ 0#10 from rfl, show 0x400#12 = 1#2 ++ 0#10 from rfl,
    show 0x800#12 = 2#2 ++ 0#10 from rfl, show 0xC00#12 = 3#2 ++ 0#10 from rfl, word, opField]

theorem op_cases : ∀ op : BitVec 2, op = 0#2 ∨ op = 1#2 ∨ op = 2#2 ∨ op = 3#2 := by decide

/-- Every command word is its fields `OP` and `CMD[9:0]` (R51). -/
theorem exists_fields (w : BitVec 12) : ∃ (op : BitVec 2) (low : BitVec 10), w = op ++ low :=
  ⟨w.extractLsb' 10 2, w.extractLsb' 0 10,
    (BitVec.extractLsb'_append_extractLsb' (w := 2) (len := 10)).symm⟩

/-- The word of a `CFG` is `OP = 00` followed by its operand fields `TLEN` and `TCHAR` (R51). -/
theorem cfgWord_eq (tlen : BitVec 2) (tchar : CharCode) :
    0b00#2 ++ tlen ++ tchar = 0b00#2 ++ (tlen ++ tchar) := BitVec.append_assoc

/-- A command's word decodes back (R52, R53, R59). -/
theorem decodeCmd_of_encode {i : Instr} {w : BitVec 12} (hwf : WellFormed i = true)
    (h : encode i = .cmd w) : decodeCmd w = i.expand := by
  cases i with
  | cfg tlen tchar =>
    cases h
    rw [cfgWord_eq, decodeCmd_append, if_pos rfl, BitVec.extractLsb'_append_eq_left,
      BitVec.extractLsb'_append_eq_right, Instr.expand]
  | enc | dec | cfgDefault => cases h; rfl
  | illegalOp low => cases h; exact decodeCmd_append 3#2 low
  | illegalOperand m low =>
    have hlow : low ≠ 0#10 := of_decide_eq_true hwf
    cases m with
    | enc | dec => cases h; rw [decodeCmd_append]; simp [hlow, Instr.expand]
  | _ => cases h

/-- Settles O2: by `OP`, and by whether `CMD[9:0]` is zero, as the map of R52 and R53 divides the words. -/
theorem commandWordsEncodeBack : Obligations.CommandWordsEncodeBack := by
  intro w
  obtain ⟨op, low, rfl⟩ := exists_fields w
  rw [decodeCmd_append]
  obtain rfl | rfl | rfl | rfl := op_cases op
  · have operands : low.extractLsb' 8 2 ++ low.extractLsb' 0 8 = low :=
      BitVec.extractLsb'_append_extractLsb'
    refine ⟨rfl, congrArg Code.cmd ?_⟩
    rw [cfgWord_eq, operands]
  · by_cases hlow : low = 0#10
    · subst hlow; exact ⟨rfl, rfl⟩
    · simp [hlow, WellFormed, encode]
  · by_cases hlow : low = 0#10
    · subst hlow; exact ⟨rfl, rfl⟩
    · simp [hlow, WellFormed, encode]
  · exact ⟨rfl, rfl⟩

/-- Settles O3: each word is evaluated. -/
theorem sampleWordsDecode : Obligations.SampleWordsDecode := by
  refine ⟨?_, ?_, ?_, ?_, ?_, ?_, ?_, ?_, ?_, ?_, ?_, ?_⟩ <;> rfl

/-- An illegal command accepted writes only `ERR` (R116). -/
theorem exec_illegalOp {s : State} (hb : s.busy = false) (low : BitVec 10) :
    exec (.illegalOp low) s = .next { s with err := .illegalCommand } := whenIdle_idle _ hb

/-- An illegal operand accepted writes only `ERR` (R116). -/
theorem exec_illegalOperand {s : State} (hb : s.busy = false) (m : Mode) (low : BitVec 10) :
    exec (.illegalOperand m low) s = .next { s with err := .illegalCommand } := whenIdle_idle _ hb

/-- Settles O4: the condition of R53 is one on the fields by which the decoder goes. -/
theorem commandWordMap : Obligations.CommandWordMap := by
  intro w s hb
  obtain ⟨op, low, rfl⟩ := exists_fields w
  rw [BitVec.extractLsb'_append_eq_left, BitVec.extractLsb'_append_eq_right,
    BitVec.extractLsb'_append_eq_of_add_le (by decide), BitVec.extractLsb'_append_eq_of_add_le (by decide),
    decodeCmd_append]
  obtain rfl | rfl | rfl | rfl := op_cases op
  · rfl
  · by_cases hlow : low = 0#10
    · subst hlow; rfl
    · simpa [hlow] using exec_illegalOperand hb .enc low
  · by_cases hlow : low = 0#10
    · subst hlow; rfl
    · simpa [hlow] using exec_illegalOperand hb .dec low
  · exact exec_illegalOp hb low

/-- Settles O56: `TLEN` and `TCHAR` are read back from the word of the line's `CFG`. -/
theorem assembledCommandWords : Obligations.AssembledCommandWords := by
  refine ⟨rfl, rfl, fun str => ⟨_, rfl, ?_, ?_, ?_⟩⟩
  · rw [cfgWord_eq, BitVec.extractLsb'_append_eq_left]
  · rw [cfgWord_eq, BitVec.extractLsb'_append_eq_of_add_le (by decide),
      BitVec.extractLsb'_append_eq_left, BitVec.toNat_ofNat]
    exact Nat.mod_eq_of_lt (Nat.lt_succ_of_le (Nat.min_le_right _ _))
  · rw [BitVec.extractLsb'_append_eq_right]
    cases str with
    | nil => rfl
    | cons c str => rfl

/-! ### Selectors -/

/-- Settles O5: for each `MODE`, its 16 rows are evaluated. -/
theorem groupSelectorTruthTable : Obligations.GroupSelectorTruthTable := by
  intro m
  cases m with
  | enc => decide
  | dec => decide

/-- Settles O6: both sides say that the value is 61, 62 or 63, its upper four bits those of 60. -/
theorem escapeMuxSelection : Obligations.EscapeMuxSelection := by
  refine fun v => ⟨rfl, ?_⟩
  have hv := v.isLt
  simp only [← BitVec.toNat_inj, ne_eq, BitVec.extractLsb'_toNat, BitVec.toNat_ofNat,
    Nat.shiftRight_eq_div_pow]
  omega

/-- The mux selects `EMIT.D` for a value 0 to 60 (R55). -/
theorem decodeSextet_direct {v : Sextet} (h : v.toNat < 61) : decodeSextet v = .emitD v := by
  unfold decodeSextet
  rw [if_neg, if_neg, if_neg]
  all_goals
    rintro rfl
    revert h
    decide

/-- A group selector decodes back (R54). -/
theorem decodeGsel_of_encode {i : Instr} {w : BitVec 5} (hwf : WellFormed i = true)
    (h : encode i = .gsel w) : decodeGsel w = .ok i.expand := by
  cases i with
  | noDispatch m g =>
    cases h
    rw [groupSelectorTruthTable m 0#1 g, if_pos rfl, if_pos (of_decide_eq_true hwf), Instr.expand]
  | pack3 | pack2 | pack1 | pack0 | unpack4 | unpack3 | unpack2 | unpack1 | unpack0 => cases h; rfl
  | illegalOperand m low => cases m <;> cases h
  | _ => cases h

/-- A value of the escape mux decodes back (R55). -/
theorem decodeSextet_of_encode {i : Instr} {v : Sextet} (hwf : WellFormed i = true)
    (h : encode i = .sextet v) : decodeSextet v = i.expand := by
  cases i with
  | emitE1 | emitE2 | emitE3 => cases h; rfl
  | emitD v => cases h; exact decodeSextet_direct (Nat.lt_succ_of_le (of_decide_eq_true hwf))
  | illegalOperand m low => cases m <;> cases h
  | _ => cases h

/-- An escape digit decodes back (R56, R92). -/
theorem decodeEscDigit_of_encode {i : Instr} {d : CharCode} (hwf : WellFormed i = true)
    (h : encode i = .escDigit d) : decodeEscDigit d = i.expand := by
  cases i with
  | escd1 | escd2 | escd3 => cases h; rfl
  | escdBad d =>
    cases h
    obtain ⟨⟨h1, h2⟩, h3⟩ : (d ≠ 0x31#8 ∧ d ≠ 0x32#8) ∧ d ≠ 0x33#8 := by simpa [WellFormed] using hwf
    simp [decodeEscDigit, h1, h2, h3, Instr.expand]
  | illegalOperand m low => cases m <;> cases h
  | _ => cases h

/-- A classified character decodes back under the tables that select its row (R56, R91). -/
theorem decodeClassify_of_encode {tag : CharCode} {lut : DecLut} {i : Instr} {c : CharCode}
    (hsel : i.selectedBy tag lut = true) (h : encode i = .classify c) :
    decodeClassify tag lut c = i.expand := by
  cases i with
  | clsTag c => cases h; exact if_pos (of_decide_eq_true hsel)
  | clsDirect c | clsInvalid c =>
    cases h
    obtain ⟨htag, hlut⟩ := Bool.and_eq_true_iff.mp hsel
    have htag := of_decide_eq_true htag
    have hlut := of_decide_eq_true hlut
    simp [decodeClassify, htag, hlut, Instr.expand]
  | illegalOperand m low => cases m <;> cases h
  | _ => cases h

/-- Settles O1: format by format. -/
theorem wellFormedInstructionsDecodeBack : Obligations.WellFormedInstructionsDecodeBack := by
  intro tag lut i hwf hsel
  cases h : encode i with
  | cmd w => exact congrArg Except.ok (decodeCmd_of_encode hwf h)
  | gsel w => exact decodeGsel_of_encode hwf h
  | sextet v => exact congrArg Except.ok (decodeSextet_of_encode hwf h)
  | escDigit d => exact congrArg Except.ok (decodeEscDigit_of_encode hwf h)
  | classify c => exact congrArg Except.ok (decodeClassify_of_encode hsel h)

end Sys2Proof.Machine

/-! ## O8, O9: a step runs what its word or selector decodes to -/

namespace Sys2Proof.Machine

/-- Settles O8: the step is the host's action, and the word decodes back to the instruction. -/
theorem stepRunsThePresentedCommand : Obligations.StepRunsThePresentedCommand := by
  intro s w rest h
  have presented : step s = exec (decodeCmd w) { s with host := rest } := step_hostAct h
  refine ⟨presented, fun i hwf hi => ?_⟩
  rw [presented, decodeCmd_of_encode hwf hi]

/-- With no action of the host pending, a busy block takes a micro-step (R10). -/
theorem step_running {s : State} (hh : s.host = []) (hb : s.busy = true) : step s = microStep s := by
  unfold step nextMove
  rw [hh]
  exact if_pos hb

/-! The four micro-steps, by `MODE` and by whether the input has ended (R81, R82, R100, R101). -/

section
variable {s : State}

theorem microStep_load (hm : s.mode = .enc) (hp : s.pos < s.inLen) :
    microStep s = dispatch false (loadOctet s) := by
  simp [microStep, hm, hp]

theorem microStep_flush (hm : s.mode = .enc) (hp : s.inLen ≤ s.pos) :
    microStep s = dispatch true s := by
  simp [microStep, hm, Nat.not_lt.mpr hp]

theorem microStep_char (hm : s.mode = .dec) (hp : s.pos < s.inLen) : microStep s = charStep s := by
  simp [microStep, hm, hp]

theorem microStep_end (hm : s.mode = .dec) (hp : s.inLen ≤ s.pos) : microStep s = endStep s := by
  simp [microStep, hm, Nat.not_lt.mpr hp]

/-- After the selected character has run, the dispatch follows unless it raised (R100, R102). -/
theorem charStep_of_selected {t : State}
    (h : exec (selectChar (coreReadIn s s.pos) s) { s with pos := s.pos + 1 } = .next t) :
    charStep s = if t.busy then dispatch false t else .next t := by
  rw [charStep, selectChar_runs, h, seq_next]

end

/-- Settles O9: micro-step by micro-step; a dispatch runs what its selector decodes to. -/
theorem stepRunsTheSelectedMicroOperation : Obligations.StepRunsTheSelectedMicroOperation := by
  intro s hh hb
  rw [step_running hh hb]
  refine ⟨fun i hm hp hi => ?_, fun i hm hp hi => ?_, fun t hm hp ht => ⟨fun hbt => ?_, fun j hbt hj => ?_⟩,
    fun i hm hp he hi => ?_⟩
  · rw [microStep_load hm hp, dispatch_ok hi]
  · rw [microStep_flush hm hp, dispatch_ok hi]
  · rw [microStep_char hm hp, charStep_of_selected ht, hbt]; rfl
  · rw [microStep_char hm hp, charStep_of_selected ht, if_pos hbt, dispatch_ok hj]
  · rw [microStep_end hm hp, endStep, he]; exact dispatch_ok hi

end Sys2Proof.Machine

/-! ## O57: the assembler's input line -/

namespace Sys2Proof.Machine

/-- With an unbounded `MAX_IN` a write of an item by an idle block's host lands (R30). -/
theorem step_writeIn {s : State} (hb : s.busy = false) (hm : s.params.maxIn = none) (i : Nat)
    (v : BitVec 8) (l : List HostAct) :
    step (s.withHost (.writeIn i v :: l)) =
      .next (State.withHost l { s with inBuf := s.inBuf.write i v, reply := .silent }) := by
  have hi : inHolds (s.withHost l).params i = true := by simp [inHolds, State.withHost, hm]
  rw [step_withHost_cons, hostMove, hostWriteIn_idle (s := s.withHost l) hb, if_pos hi]
  rfl

/-- With an unbounded `MAX_IN` the register takes every number (R18). -/
theorem step_writeInLen {s : State} (hb : s.busy = false) (hm : s.params.maxIn = none) (n : Nat)
    (l : List HostAct) :
    step (s.withHost (.writeInLen n :: l)) =
      .next (State.withHost l { s with inLen := n, reply := .silent }) := by
  have hn : inLenHolds (s.withHost l).params n = true := by simp [inLenHolds, State.withHost, hm]
  rw [step_withHost_cons, hostMove, hostWriteInLen_idle (s := s.withHost l) hb, if_pos hn]
  rfl

/-- Writes from index `i` and then of `IN_LEN` leave the items there and the number in the register. -/
theorem runSteps_writesFrom (items : List (BitVec 8)) (i n : Nat) (rest : List HostAct) {s : State}
    (hb : s.busy = false) (hm : s.params.maxIn = none) :
    runSteps (items.length + 1) (s.withHost (writesFrom i items ++ .writeInLen n :: rest)) =
      .next { s with
        inLen := n, inBuf := s.inBuf.writeAll i items, host := rest, reply := .silent } := by
  induction items generalizing i s with
  | nil =>
    rw [writesFrom, List.nil_append, runSteps_succ, step_writeInLen hb hm]
    rfl
  | cons v items ih =>
    rw [writesFrom, List.cons_append, List.length_cons, runSteps_succ, step_writeIn hb hm, seq_next]
    exact ih (i + 1) hb hm

/-- Items written from index 0 are the input of their number. -/
theorem inputItems_of_writeAll {t : State} {m : Mem} {items : List (BitVec 8)}
    (hlen : t.inLen = items.length) (hbuf : t.inBuf = m.writeAll 0 items) : inputItems t = items := by
  refine List.ext_getElem (by simp [inputItems, hlen]) fun k _ hk => ?_
  have read := Mem.read_writeAll_at m 0 items hk
  rw [Nat.zero_add, List.getElem?_eq_getElem hk] at read
  simp [inputItems, coreReadIn, hbuf, read]

/-- Settles O57: the writes are run one by one, and the items are then read back. -/
theorem assembledInputLineFillsTheBuffer : Obligations.AssembledInputLineFillsTheBuffer := by
  intro s items rest hb hm
  have acts : (AsmLine.setIn items).acts ++ rest =
      writesFrom 0 items ++ .writeInLen items.length :: rest := by simp [AsmLine.acts]
  rw [acts]
  exact ⟨_, runSteps_writesFrom items 0 items.length rest hb hm, rfl, inputItems_of_writeAll rfl rfl,
    fun i hi => Mem.read_writeAll_other _ _ (.inr (by omega))⟩

end Sys2Proof.Machine

/-! ## O24: the escape mux -/

namespace Sys2Proof.Machine

/-- What the mux selects is what `EMIT` does (R55, R79). -/
theorem exec_decodeSextet (v : Sextet) (s : State) : exec (decodeSextet v) s = emit v s := by
  unfold decodeSextet emit
  split
  · rfl
  split
  · rfl
  split
  · rfl
  · rfl

theorem encTable_direct {v : Sextet} (h : v.toNat < 61) (tag : CharCode) (enc : EncLut) :
    encTable tag enc v = .direct enc[v.toNat] := dif_pos h

theorem encTable_escaped {v : Sextet} (h : 61 ≤ v.toNat) (tag : CharCode) (enc : EncLut) :
    encTable tag enc v = .escaped tag (BitVec.ofNat 8 (0x30 + (v.toNat - 60))) :=
  dif_neg (Nat.not_lt.mpr h)

/-- Settles O24: what the mux selects for a sextet writes its symbol, and the four rows are what it selects. -/
theorem emitWritesTheSymbol : Obligations.EmitWritesTheSymbol := by
  intro s
  have selected (v : Sextet)
      (h : outRoom s.params (s.wpos + (encTable s.tag s.encLut v).chars.length) = true) :
      exec (decodeSextet v) s = .next (storeItems (encTable s.tag s.encLut v).chars s) := by
    rw [exec_decodeSextet, emit_eq_putItems, putItems_room h]
  refine ⟨fun h => ⟨selected 61#6 h, selected 62#6 h, selected 63#6 h⟩, fun v hv h => ?_, selected⟩
  have direct := selected v
  rw [decodeSextet_direct hv, encTable_direct hv] at direct
  exact direct h

end Sys2Proof.Machine

/-! ## O7, O13, O19, O20: the alphabet and the two tables -/

namespace Sys2Proof.Machine

theorem configure_valid {tlen : BitVec 2} {c : CharCode} (h : tagValid tlen c = true) (s : State) :
    configure tlen c s = commitTables c s := if_pos h

/-- Settles O13: the pseudo-command is the explicit `CFG` by definition, its tag is valid, and that tag is the
character of index 59. -/
theorem pseudoCommandIsCfgX : Obligations.PseudoCommandIsCfgX := by
  have valid : tagValid 1#2 defaultTag = true := rfl
  have index : alphaIndex 0x78#8 = 59 := rfl
  refine ⟨rfl, rfl, fun s => rfl, fun s hb => ?_, rfl⟩
  rw [exec, execCfgDefault, whenIdle_idle _ hb, configure_valid valid, ← index]
  rfl

/-! ### The alphabet -/

/-- The codes of the alphabet in its order: digits, uppercase, lowercase (R7). -/
theorem toNat_alpha {i : Nat} (h : i < 62) :
    (alpha i).toNat = if i ≤ 9 then 0x30 + i else if i ≤ 35 then 0x37 + i else 0x3D + i := by
  unfold alpha
  split
  · rw [BitVec.toNat_ofNat]; omega
  split
  · rw [BitVec.toNat_ofNat]; omega
  · rw [BitVec.toNat_ofNat]; omega

theorem isAlnum_iff {c : CharCode} :
    isAlnum c = true ↔ (0x30 ≤ c.toNat ∧ c.toNat ≤ 0x39) ∨ (0x41 ≤ c.toNat ∧ c.toNat ≤ 0x5A) ∨
      (0x61 ≤ c.toNat ∧ c.toNat ≤ 0x7A) := by
  simp [isAlnum, or_assoc]

theorem isAlnum_alpha {i : Nat} (h : i < 62) : isAlnum (alpha i) = true := by
  rw [isAlnum_iff, toNat_alpha h]
  split_ifs <;> omega

theorem alphaIndex_alpha {i : Nat} (h : i < 62) : alphaIndex (alpha i) = i := by
  rw [alphaIndex, toNat_alpha h]
  split_ifs <;> omega

theorem alphaIndex_lt {c : CharCode} (h : isAlnum c = true) : alphaIndex c < 62 := by
  rw [isAlnum_iff] at h
  unfold alphaIndex
  split_ifs <;> omega

theorem alpha_alphaIndex {c : CharCode} (h : isAlnum c = true) : alpha (alphaIndex c) = c := by
  have hi := alphaIndex_lt h
  refine BitVec.eq_of_toNat_eq ?_
  rw [toNat_alpha hi, alphaIndex]
  rw [isAlnum_iff] at h
  split_ifs <;> omega

theorem alpha_inj {i j : Nat} (hi : i < 62) (hj : j < 62) : alpha i = alpha j ↔ i = j :=
  ⟨fun h => by rw [← alphaIndex_alpha hi, h, alphaIndex_alpha hj], congrArg alpha⟩

/-! ### The forward table -/

theorem buildEnc_getElem (k : Nat) {v : Nat} (h : v < 61) :
    (buildEnc k)[v] = if v < k then alpha v else alpha (v + 1) := by
  simp [buildEnc]

/-- Settles O19: a direct symbol is the entry of the forward table, whose closed form is R65's. -/
theorem encodeTableClosedForm : Obligations.EncodeTableClosedForm := by
  intro k v _
  by_cases hv : v.toNat < 61
  · have hv' : v.toNat ≤ 60 := by omega
    rw [encTable_direct hv, buildEnc_getElem k hv]
    simp only [hv', and_true, if_true]
    split <;> rfl
  · rw [encTable_escaped (by omega), if_neg (by omega), if_neg (by omega)]

/-- The alphabet's index of the entry `v` of the forward table: the index `k` is skipped (R65). -/
def skipIndex (k v : Nat) : Nat := if v < k then v else v + 1

theorem buildEnc_getElem_alpha (k : Nat) {v : Nat} (h : v < 61) :
    (buildEnc k)[v] = alpha (skipIndex k v) := by
  rw [buildEnc_getElem k h, skipIndex]
  split <;> rfl

theorem skipIndex_lt {k v : Nat} (h : v < 61) : skipIndex k v < 62 := by
  unfold skipIndex
  split <;> omega

theorem skipIndex_ne (k v : Nat) : skipIndex k v ≠ k := by
  unfold skipIndex
  split <;> omega

theorem skipIndex_inj {k u v : Nat} : skipIndex k u = skipIndex k v ↔ u = v := by
  unfold skipIndex
  split <;> split <;> omega

/-- Every index of the alphabet but `k` is that of an entry. -/
theorem exists_skipIndex {k i : Nat} (hk : k < 62) (hi : i < 62) (h : i ≠ k) :
    ∃ v : Fin 61, skipIndex k v = i := by
  unfold skipIndex
  by_cases hik : i < k
  · exact ⟨⟨i, by omega⟩, if_pos hik⟩
  · exact ⟨⟨i - 1, by omega⟩, by dsimp only; split <;> omega⟩

/-- The direct characters are the alphabet without the tag (R68). -/
theorem mem_buildEnc_iff {t c : CharCode} (ht : isAlnum t = true) :
    (∃ v : Fin 61, (buildEnc (alphaIndex t))[v] = c) ↔ isAlnum c = true ∧ c ≠ t := by
  constructor
  · rintro ⟨v, rfl⟩
    have hi := skipIndex_lt (k := alphaIndex t) v.isLt
    rw [Fin.getElem_fin, buildEnc_getElem_alpha _ v.isLt]
    refine ⟨isAlnum_alpha hi, fun h => skipIndex_ne (alphaIndex t) v ?_⟩
    exact (alphaIndex_alpha hi).symm.trans (congrArg alphaIndex h)
  · rintro ⟨hc, hne⟩
    have hidx : alphaIndex c ≠ alphaIndex t := fun h =>
      hne (by rw [← alpha_alphaIndex hc, h, alpha_alphaIndex ht])
    obtain ⟨v, hv⟩ := exists_skipIndex (alphaIndex_lt ht) (alphaIndex_lt hc) hidx
    exact ⟨v, by rw [Fin.getElem_fin, buildEnc_getElem_alpha _ v.isLt, hv, alpha_alphaIndex hc]⟩

theorem buildEnc_inj {k u v : Nat} (hu : u < 61) (hv : v < 61) :
    (buildEnc k)[u] = (buildEnc k)[v] ↔ u = v := by
  rw [buildEnc_getElem_alpha k hu, buildEnc_getElem_alpha k hv,
    alpha_inj (skipIndex_lt hu) (skipIndex_lt hv), skipIndex_inj]

/-! ### The reverse table -/

/-- One write of the reverse table's loop (R66). -/
def writeEntry (enc : EncLut) (dec : DecLut) (v : Fin 61) : DecLut :=
  dec.set enc[v].toNat (BitVec.ofNat 8 v.val) enc[v].isLt

theorem buildDec_eq_foldl (enc : EncLut) :
    buildDec enc = (List.finRange 61).foldl (writeEntry enc) (Vector.replicate 256 noneMark) := rfl

theorem writeEntry_getElem (enc : EncLut) (dec : DecLut) (v : Fin 61) (c : CharCode) :
    (writeEntry enc dec v)[c.toNat]'c.isLt =
      if enc[v] = c then BitVec.ofNat 8 v.val else dec[c.toNat]'c.isLt := by
  simp only [writeEntry, Vector.getElem_set, BitVec.toNat_inj]

/-- What the loop leaves at a character: the value of one of its entries, or what was there if no entry of the
loop is the character. -/
theorem foldl_writeEntry_cases (enc : EncLut) (vs : List (Fin 61)) (dec : DecLut) (c : CharCode) :
    (∃ v ∈ vs, enc[v] = c ∧ (vs.foldl (writeEntry enc) dec)[c.toNat]'c.isLt = BitVec.ofNat 8 v.val) ∨
      (∀ v ∈ vs, enc[v] ≠ c) ∧
        (vs.foldl (writeEntry enc) dec)[c.toNat]'c.isLt = dec[c.toNat]'c.isLt := by
  induction vs generalizing dec with
  | nil => exact .inr ⟨List.forall_mem_nil _, rfl⟩
  | cons v vs ih =>
    rw [List.foldl_cons]
    obtain ⟨u, hu, hc, h⟩ | ⟨hne, h⟩ := ih (writeEntry enc dec v)
    · exact .inl ⟨u, List.mem_cons_of_mem _ hu, hc, h⟩
    · rw [writeEntry_getElem] at h
      by_cases hv : enc[v] = c
      · exact .inl ⟨v, List.mem_cons_self, hv, h.trans (if_pos hv)⟩
      · exact .inr ⟨List.forall_mem_cons.mpr ⟨hv, hne⟩, h.trans (if_neg hv)⟩

/-- An entry of the reverse table: the value of a character of the forward table, or `NONE` (R66). -/
theorem buildDec_cases (enc : EncLut) (c : CharCode) :
    (∃ v : Fin 61, enc[v] = c ∧ (buildDec enc)[c.toNat]'c.isLt = BitVec.ofNat 8 v.val) ∨
      (∀ v : Fin 61, enc[v] ≠ c) ∧ (buildDec enc)[c.toNat]'c.isLt = noneMark := by
  rw [buildDec_eq_foldl]
  obtain ⟨v, -, h⟩ | ⟨hne, h⟩ :=
    foldl_writeEntry_cases enc (List.finRange 61) (Vector.replicate 256 noneMark) c
  · exact .inl ⟨v, h⟩
  · exact .inr ⟨fun v => hne v (List.mem_finRange v), h.trans (Vector.getElem_replicate _)⟩

theorem ofNat_ne_noneMark (v : Fin 61) : BitVec.ofNat 8 v.val ≠ noneMark := by
  have hv := v.isLt
  rw [noneMark, ne_eq, ← BitVec.toNat_inj, BitVec.toNat_ofNat, BitVec.toNat_ofNat]
  omega

theorem buildDec_ne_noneMark_iff (enc : EncLut) (c : CharCode) :
    (buildDec enc)[c.toNat]'c.isLt ≠ noneMark ↔ ∃ v : Fin 61, enc[v] = c := by
  obtain ⟨v, hv, h⟩ | ⟨hne, h⟩ := buildDec_cases enc c
  · rw [h]
    exact iff_of_true (ofNat_ne_noneMark v) ⟨v, hv⟩
  · exact iff_of_false (fun h' => h' h) fun ⟨v, hv⟩ => hne v hv

/-- Settles O7: a character has an entry of the reverse table if it is in the alphabet and is not the tag. -/
theorem classifierFollowsTheAlphabet : Obligations.ClassifierFollowsTheAlphabet := by
  intro t c ht
  have direct := (buildDec_ne_noneMark_iff (buildEnc (alphaIndex t)) c).trans (mem_buildEnc_iff ht)
  unfold decodeClassify
  by_cases hc : c = t
  · rw [if_pos hc, if_pos hc]
  · simp only [direct, hc, ne_eq, not_false_eq_true, and_true]

/-! ### Symbols -/

section
variable {t : CharCode} {v : Sextet}

theorem chars_direct (h : v.toNat < 61) (tag : CharCode) (enc : EncLut) :
    (encTable tag enc v).chars = [enc[v.toNat]] := by
  rw [encTable_direct h, Symbol.chars]

/-- The digit of the escape of `v` (R47). -/
def escapeDigit (v : Sextet) : CharCode := BitVec.ofNat 8 (0x30 + (v.toNat - 60))

theorem chars_escaped (h : 61 ≤ v.toNat) (tag : CharCode) (enc : EncLut) :
    (encTable tag enc v).chars = [tag, escapeDigit v] := by
  rw [encTable_escaped h, Symbol.chars, escapeDigit]

theorem escapeDigit_inj {u : Sextet} (hu : 61 ≤ u.toNat) (hv : 61 ≤ v.toNat) :
    escapeDigit u = escapeDigit v ↔ u = v := by
  have := u.isLt
  have := v.isLt
  simp only [escapeDigit, ← BitVec.toNat_inj, BitVec.toNat_ofNat]
  omega

/-- The tag is no direct symbol (R68). -/
theorem buildEnc_ne_tag (ht : isAlnum t = true) (h : v.toNat < 61) :
    (buildEnc (alphaIndex t))[v.toNat] ≠ t :=
  ((mem_buildEnc_iff ht).mp ⟨⟨v.toNat, h⟩, rfl⟩).2

end

/-- Settles O20: an escape starts with the tag and a direct symbol does not, so that a symbol starts with
another only if both are of one kind; the direct character or the escape's digit then tells the value. -/
theorem symbolLengthFromFirstCharacter : Obligations.SymbolLengthFromFirstCharacter := by
  intro t ht
  refine ⟨fun v => ?_, fun u v h => ?_⟩
  · obtain hv | hv := Nat.lt_or_ge v.toNat 61
    · simp [chars_direct hv, buildEnc_ne_tag ht hv]
    · simp [chars_escaped hv]
  · obtain hu | hu := Nat.lt_or_ge u.toNat 61
    · rw [chars_direct hu] at h
      obtain hv | hv := Nat.lt_or_ge v.toNat 61
      · rw [chars_direct hv] at h
        simpa [buildEnc_inj hu hv, BitVec.toNat_inj] using h
      · rw [chars_escaped hv] at h
        simp [buildEnc_ne_tag ht hu] at h
    · rw [chars_escaped hu] at h
      obtain hv | hv := Nat.lt_or_ge v.toNat 61
      · rw [chars_direct hv] at h
        simp at h
      · rw [chars_escaped hv] at h
        simpa [escapeDigit_inj hu hv] using h

end Sys2Proof.Machine

/-! ## O11, O12, O14 to O18: the table builder -/

namespace Sys2Proof.Machine

/-! ### `CFG` -/

theorem tagValid_iff {tlen : BitVec 2} {c : CharCode} :
    tagValid tlen c = true ↔ tlen = 1#2 ∧ isAlnum c = true := by
  simp [tagValid]

/-- An accepted `CFG` with a valid tag commits the table set (R60). -/
theorem exec_cfg_valid {s : State} {tlen : BitVec 2} {c : CharCode} (hb : s.busy = false)
    (h : tlen = 1#2 ∧ isAlnum c = true) : exec (.cfg tlen c) s = .next (commitTables c s) := by
  rw [exec, execCfg, whenIdle_idle _ hb, configure_valid (tagValid_iff.mpr h)]

/-- An accepted `CFG` with any other tag writes `ERR` (R64). -/
theorem exec_cfg_invalid {s : State} {tlen : BitVec 2} {c : CharCode} (hb : s.busy = false)
    (h : ¬(tlen = 1#2 ∧ isAlnum c = true)) :
    exec (.cfg tlen c) s = .next { s with err := .invalidConfiguration } := by
  rw [exec, execCfg, whenIdle_idle _ hb, configure, if_neg (mt tagValid_iff.mp h),
    raiseError_invalidConfiguration]

/-- Settles O11: the commit is the state the statement writes out. -/
theorem cfgBuildsTheTables : Obligations.CfgBuildsTheTables :=
  fun _ _ hb hc => exec_cfg_valid hb ⟨rfl, hc⟩

/-- Settles O12: the failed `CFG` leaves `BUSY` at 0, so that the second one is accepted and fails alike. -/
theorem failedCfgChangesOnlyErr : Obligations.FailedCfgChangesOnlyErr :=
  fun _ _ _ hb h => ⟨exec_cfg_invalid hb h, exec_cfg_invalid hb h⟩

/-- On consistent tables the commit of the tag in force writes what the registers hold. -/
theorem commitTables_tag_inForce {s : State} (hok : s.cfgOk = true) (h : TablesOk s) :
    commitTables s.tag s = { s with err := .ok } := by
  obtain ⟨-, henc, hdec⟩ := h hok
  rw [commitTables, ← henc, ← hdec, ← hok]

/-- Settles O14: what the commit writes names the tag alone. -/
theorem cfgDependsOnItsOperandsOnly : Obligations.CfgDependsOnItsOperandsOnly := by
  refine ⟨fun tlen c s s' t t' hb hb' hv ht ht' => ?_, fun s hb hok h => ?_⟩
  · rw [exec_cfg_valid hb hv] at ht
    rw [exec_cfg_valid hb' hv] at ht'
    cases ht
    cases ht'
    exact ⟨rfl, rfl, rfl, rfl⟩
  · rw [exec_cfg_valid hb ⟨rfl, (h hok).1⟩, commitTables_tag_inForce hok h]

/-! ### The alphabet in its order -/

theorem alphaIndex_digit {c : CharCode} (h : c.toNat ≤ 0x39) : alphaIndex c = c.toNat - 0x30 :=
  if_pos h

theorem alphaIndex_upper {c : CharCode} (lo : 0x41 ≤ c.toNat) (hi : c.toNat ≤ 0x5A) :
    alphaIndex c = c.toNat - 0x41 + 10 := by
  rw [alphaIndex, if_neg (by omega), if_pos hi]

theorem alphaIndex_lower {c : CharCode} (lo : 0x61 ≤ c.toNat) :
    alphaIndex c = c.toNat - 0x61 + 36 := by
  rw [alphaIndex, if_neg (by omega), if_neg (by omega)]

/-- Settles O15: `AlphaIndex` is a left and a right inverse of `ALPHA`, with one formula per range. -/
theorem alphaIndexInvertsAlpha : Obligations.AlphaIndexInvertsAlpha :=
  ⟨fun _ hi => ⟨isAlnum_alpha hi, alphaIndex_alpha hi⟩, fun _ hc =>
    ⟨alphaIndex_lt hc, alpha_alphaIndex hc, fun _ => alphaIndex_digit, alphaIndex_upper,
      fun lo _ => alphaIndex_lower lo⟩⟩

/-- The codes of the alphabet increase along it (R7). -/
theorem toNat_alpha_lt {i j : Nat} (hij : i < j) (hj : j < 62) : (alpha i).toNat < (alpha j).toNat := by
  rw [toNat_alpha (hij.trans hj), toNat_alpha hj]
  split_ifs <;> omega

/-! ### The loop of the forward table -/

/-- One pass of the forward table's loop (R65). -/
def appendUnless (k : Nat) (enc : List CharCode) (i : Nat) : List CharCode :=
  if i ≠ k then enc ++ [alpha i] else enc

theorem buildEncLoop_eq_foldl (k : Nat) :
    buildEncLoop k = (List.range 62).foldl (appendUnless k) [] := rfl

/-- The loop's invariant: after `n` passes, one of which the tag may have skipped, the list holds the first
entries of the table. -/
theorem foldl_appendUnless (k n : Nat) :
    (List.range n).foldl (appendUnless k) [] =
      (List.range (if n ≤ k then n else n - 1)).map fun v => alpha (skipIndex k v) := by
  induction n with
  | zero => simp
  | succ n ih =>
    rw [List.range_succ, List.foldl_append, ih, List.foldl_cons, List.foldl_nil, appendUnless]
    obtain hn | rfl | hn := Nat.lt_trichotomy n k
    · have hskip : skipIndex k n = n := if_pos hn
      rw [if_pos hn.ne, if_pos hn.le, if_pos (Nat.succ_le_of_lt hn), List.range_succ, List.map_append,
        List.map_singleton, hskip]
    · simp
    · obtain ⟨m, rfl⟩ := Nat.exists_eq_add_one_of_ne_zero (Nat.ne_zero_of_lt hn)
      have hskip : skipIndex k m = m + 1 := if_neg (by omega)
      rw [if_pos hn.ne', if_neg hn.not_ge, if_neg (by omega), Nat.add_sub_cancel, Nat.add_sub_cancel,
        List.range_succ, List.map_append, List.map_singleton, hskip]

theorem buildEnc_toList (k : Nat) :
    (buildEnc k).toList = (List.range 61).map fun v => alpha (skipIndex k v) := by
  refine List.ext_getElem (by simp) fun v hv _ => ?_
  rw [Vector.length_toList] at hv
  rw [Vector.getElem_toList, buildEnc_getElem_alpha k hv, List.getElem_map, List.getElem_range]

/-- Settles O16: the loop's invariant after its 62 passes. -/
theorem forwardTableLoopIsItsClosedForm : Obligations.ForwardTableLoopIsItsClosedForm := by
  refine fun k hk => ⟨?_, fun v hv => ?_⟩
  · rw [buildEncLoop_eq_foldl, foldl_appendUnless, if_neg (by omega), buildEnc_toList]
  · rw [Vector.getElem?_eq_getElem hv, buildEnc_getElem k hv]

/-! ### The reverse table of a forward table -/

/-- An entry of the forward table is a character of the alphabet, with the index that skips `k`. -/
theorem alphaIndex_buildEnc (k : Nat) {v : Nat} (h : v < 61) :
    isAlnum (buildEnc k)[v] = true ∧ alphaIndex (buildEnc k)[v] = skipIndex k v := by
  rw [buildEnc_getElem_alpha k h]
  exact ⟨isAlnum_alpha (skipIndex_lt h), alphaIndex_alpha (skipIndex_lt h)⟩

/-- The one character of the alphabet that is no entry is that of index `k`. -/
theorem alphaIndex_of_forall_ne {k : Nat} {c : CharCode} (hk : k ≤ 61) (hc : isAlnum c = true)
    (hne : ∀ v : Fin 61, (buildEnc k)[v] ≠ c) : alphaIndex c = k := by
  by_contra hck
  obtain ⟨v, hv⟩ := exists_skipIndex (Nat.lt_succ_of_le hk) (alphaIndex_lt hc) hck
  exact hne v (by rw [Fin.getElem_fin, buildEnc_getElem_alpha k v.isLt, hv, alpha_alphaIndex hc])

/-- Settles O17: an entry of the forward table has its own place in the reverse table, and the alphabet's only
other character is the tag. -/
theorem reverseTableClosedForm : Obligations.ReverseTableClosedForm := by
  intro k c hk
  rw [Vector.getElem?_eq_getElem c.isLt, Option.some_inj]
  obtain ⟨v, rfl, h⟩ | ⟨hne, h⟩ := buildDec_cases (buildEnc k) c
  · obtain ⟨hc, hidx⟩ := alphaIndex_buildEnc k v.isLt
    rw [h, Fin.getElem_fin, if_pos hc, hidx]
    by_cases hv : v.val < k
    · have hskip : skipIndex k v = v := if_pos hv
      rw [hskip, if_pos hv]
    · have hskip : skipIndex k v = v + 1 := if_neg hv
      rw [hskip, if_neg (by omega), if_neg (by omega), Nat.add_sub_cancel]
  · rw [h]
    by_cases hc : isAlnum c = true
    · have hck := alphaIndex_of_forall_ne hk hc hne
      rw [if_pos hc, if_neg hck.not_lt, if_pos hck, noneMark]
    · rw [if_neg hc, noneMark]

/-! ### The two tables as inverses -/

section
variable {tag t c d : CharCode} {k : Nat} {v : Sextet}

theorem encTable_eq_direct_iff {enc : EncLut} :
    encTable tag enc v = .direct c ↔ ∃ h : v.toNat < 61, enc[v.toNat] = c := by
  obtain hv | hv := Nat.lt_or_ge v.toNat 61
  · simp [encTable_direct hv, hv]
  · simp [encTable_escaped hv, hv]

theorem encTable_eq_escaped_iff {enc : EncLut} :
    encTable tag enc v = .escaped t d ↔ t = tag ∧ 61 ≤ v.toNat ∧ escapeDigit v = d := by
  obtain hv | hv := Nat.lt_or_ge v.toNat 61
  · simp [encTable_direct hv, hv]
  · simp [encTable_escaped hv, hv, escapeDigit, eq_comm]

/-- A direct entry of the decode table is a place of the forward table: the entry is the place's number, which
fits in six bits. -/
theorem decTable_direct_eq_some_iff :
    decTable tag (buildDec (buildEnc k)) (.direct c) = some v ↔
      ∃ h : v.toNat < 61, (buildEnc k)[v.toNat] = c := by
  obtain ⟨u, rfl, h⟩ | ⟨hne, h⟩ := buildDec_cases (buildEnc k) c
  · have hu := u.isLt
    have huv : (BitVec.ofNat 8 u.val).setWidth 6 = v ↔ u.val = v.toNat := by
      rw [← BitVec.toNat_inj, BitVec.toNat_setWidth, BitVec.toNat_ofNat]
      omega
    rw [decTable, h, if_pos (ofNat_ne_noneMark u), Option.some_inj, huv]
    constructor
    · intro huv
      exact ⟨huv ▸ hu, by simp only [Fin.getElem_fin, huv]⟩
    · rintro ⟨hv, heq⟩
      exact ((buildEnc_inj hv hu).mp heq).symm
  · rw [decTable, h, if_neg (not_not.mpr rfl)]
    exact iff_of_false (Option.some_ne_none v).symm fun ⟨hv, heq⟩ => hne ⟨v.toNat, hv⟩ heq

/-- After the tag, the three digits are those of the three escapes. -/
theorem decTable_escaped_tag_eq_some_iff {dec : DecLut} :
    decTable tag dec (.escaped tag d) = some v ↔ 61 ≤ v.toNat ∧ escapeDigit v = d := by
  have escaped : 61 ≤ v.toNat ↔ v = 61#6 ∨ v = 62#6 ∨ v = 63#6 := by bv_omega
  rw [decTable, if_pos rfl, escaped]
  constructor
  · split_ifs with h1 h2 h3
    · rintro ⟨⟩; exact ⟨.inl rfl, h1.symm⟩
    · rintro ⟨⟩; exact ⟨.inr (.inl rfl), h2.symm⟩
    · rintro ⟨⟩; exact ⟨.inr (.inr rfl), h3.symm⟩
    · rintro ⟨⟩
  · rintro ⟨rfl | rfl | rfl, rfl⟩ <;> rfl

theorem decTable_escaped_eq_some_iff {dec : DecLut} :
    decTable tag dec (.escaped t d) = some v ↔ t = tag ∧ 61 ≤ v.toNat ∧ escapeDigit v = d := by
  by_cases ht : t = tag
  · rw [ht, decTable_escaped_tag_eq_some_iff, and_iff_right rfl]
  · rw [decTable, if_neg ht]
    exact iff_of_false (Option.some_ne_none v).symm fun h => ht h.1

/-- The decode table is the exact inverse of the encode table (R68). -/
theorem decTable_eq_some_iff {y : Symbol} :
    decTable tag (buildDec (buildEnc k)) y = some v ↔ encTable tag (buildEnc k) v = y := by
  cases y with
  | direct c => rw [decTable_direct_eq_some_iff, encTable_eq_direct_iff]
  | escaped t d => rw [decTable_escaped_eq_some_iff, encTable_eq_escaped_iff]

end

theorem skipIndex_lt_skipIndex {k u v : Nat} (h : u < v) : skipIndex k u < skipIndex k v := by
  unfold skipIndex
  split <;> split <;> omega

/-- The forward table is strictly increasing (R68). -/
theorem toNat_buildEnc_lt (k : Nat) {u v : Nat} (huv : u < v) (hv : v < 61) :
    (buildEnc k)[u].toNat < (buildEnc k)[v].toNat := by
  rw [buildEnc_getElem_alpha k (huv.trans hv), buildEnc_getElem_alpha k hv]
  exact toNat_alpha_lt (skipIndex_lt_skipIndex huv) (skipIndex_lt hv)

theorem isAlnum_escapeDigits {d : CharCode} (h : d = 0x31#8 ∨ d = 0x32#8 ∨ d = 0x33#8) :
    isAlnum d = true := by
  obtain rfl | rfl | rfl := h <;> rfl

/-- Settles O18 for the state of the commit: equal strings are prefixes of one another, the decode table is the
exact inverse, and the direct characters are the alphabet without the tag. -/
theorem tableSetLaws : Obligations.TableSetLaws := by
  intro t s hb ht
  have direct (c : CharCode) := mem_buildEnc_iff (c := c) ht
  refine ⟨commitTables t s, exec_cfg_valid hb ⟨rfl, ht⟩, rfl, rfl, fun v w h => ?distinct,
    fun v => decTable_eq_some_iff.mpr rfl, fun y v => decTable_eq_some_iff.mp,
    fun v hv => ((direct t).mp ⟨v, hv⟩).2 rfl, fun v w hvw => toNat_buildEnc_lt _ hvw w.isLt,
    fun d hd hdt => (direct d).mpr ⟨isAlnum_escapeDigits hd, hdt⟩, direct⟩
  case distinct => exact (symbolLengthFromFirstCharacter t ht).2 v w (h ▸ List.prefix_refl _)

end Sys2Proof.Machine

/-! ## O22: the unshifted last sextet of a tail -/

namespace Sys2Proof.Machine

/-- Settles O22: bit by bit, each sextet or octet is its fields, the last sextet without a shift. -/
theorem tailsAreUnshifted : Obligations.TailsAreUnshifted := by
  have high (a : Octet) : (a >>> 2).setWidth 6 = a.extractLsb' 2 6 :=
    BitVec.eq_of_getLsbD_eq fun i hi => by simp
  have middle (a b : Octet) :
      (((a &&& 3#8) <<< 4) ||| (b >>> 4)).setWidth 6 = a.extractLsb' 0 2 ++ b.extractLsb' 4 4 :=
    BitVec.eq_of_getLsbD_eq fun i hi => by
      simp only [BitVec.getLsbD_append]
      interval_cases i <;> simp
  have last4 (b : Octet) : (b &&& 0xF#8).setWidth 6 = (b.extractLsb' 0 4).setWidth 6 :=
    BitVec.eq_of_getLsbD_eq fun i hi => by interval_cases i <;> simp
  have last2 (a : Octet) : (a &&& 3#8).setWidth 6 = (a.extractLsb' 0 2).setWidth 6 :=
    BitVec.eq_of_getLsbD_eq fun i hi => by interval_cases i <;> simp
  have first (b0 b1 : Sextet) : firstOctet b0 b1 = b0 ++ b1.extractLsb' 4 2 :=
    BitVec.eq_of_getLsbD_eq fun i hi => by
      simp only [firstOctet, BitVec.getLsbD_append]
      interval_cases i <;> simp
  have second (b1 : Sextet) : (b1.setWidth 8 &&& 0xF#8) <<< 4 = b1.extractLsb' 0 4 ++ 0#4 :=
    BitVec.eq_of_getLsbD_eq fun i hi => by
      simp only [BitVec.getLsbD_append]
      interval_cases i <;> simp
  have only (b0 : Sextet) : b0.setWidth 8 <<< 2 = b0 ++ 0#2 :=
    BitVec.eq_of_getLsbD_eq fun i hi => by
      simp only [BitVec.getLsbD_append]
      interval_cases i <;> simp
  refine ⟨fun a b => ?_, fun a => ?_, fun b0 b1 b2 => ?_, fun b0 b1 => ?_⟩
  · rw [pack2, high, middle, last4]
  · rw [pack1, high, last2]
  · rw [unpack3, first, second]
  · rw [unpack2, only]

end Sys2Proof.Machine

/-! ## O30: acceptance -/

namespace Sys2Proof.Machine

theorem step_issue_enc {s : State} {rest : List HostAct} (hb : s.busy = false) (hc : s.cfgOk = true)
    (h : s.host = .issue 0x400#12 :: rest) : step s = .next (acceptEnc (s.withHost rest)) := by
  have word : decodeCmd 0x400#12 = .enc := by decide
  rw [step_hostAct h, hostMove, issueCmd, if_pos word, startEnc,
    whenIdle_idle (s := s.withHost rest) _ hb]
  exact if_pos hc

theorem step_issue_dec {s : State} {rest : List HostAct} (hb : s.busy = false) (hc : s.cfgOk = true)
    (h : s.host = .issue 0x800#12 :: rest) : step s = .next (acceptDec (s.withHost rest)) := by
  have word : decodeCmd 0x800#12 = .dec := by decide
  rw [step_hostAct h, hostMove, issueCmd, word, if_neg (by decide), if_pos rfl, startDec,
    whenIdle_idle (s := s.withHost rest) _ hb]
  exact if_pos hc

/-- Nothing of `OUT` is readable while `OUT_LEN = 0` (R33). -/
theorem hostReadOut_of_outLen {s : State} (h : s.outLen = 0) (i : Nat) : hostReadOut s i = none := by
  simp [hostReadOut, h]

/-- Settles O30: the word decodes to its command, whose acceptance sets `OUT_LEN` to 0. -/
theorem acceptanceOfEncAndDec : Obligations.AcceptanceOfEncAndDec := by
  intro s rest hb hc
  refine ⟨step_issue_enc hb hc, step_issue_dec hb hc, fun t ht hw i => hostReadOut_of_outLen ?_ i⟩
  obtain hw | hw := hw
  · cases (step_issue_enc hb hc hw).symm.trans ht
    rfl
  · cases (step_issue_dec hb hc hw).symm.trans ht
    rfl

end Sys2Proof.Machine

/-! ## O25: the pack dispatches -/

namespace Sys2Proof.Machine

section
variable {s : State} {text : List CharCode}

/-- Where there is room, sextets emitted are their text stored. -/
theorem seq_emitAll {vs : List Sextet} (k : State → Result) (ht : text = textOf s.tag s.encLut vs)
    (h : outRoom s.params (s.wpos + text.length) = true) :
    seq (emitAll vs s) k = k (storeItems text s) := by
  subst ht
  rw [emitAll_room h, seq_next]

theorem exec_pack3 (ht : text = textOf s.tag s.encLut (pack3 s.eb[0] s.eb[1] s.eb[2]))
    (h : outRoom s.params (s.wpos + text.length) = true) :
    exec .pack3 s = .next { storeItems text s with gcnt := 0#3 } := seq_emitAll _ ht h

theorem exec_pack2 (ht : text = textOf s.tag s.encLut (pack2 s.eb[0] s.eb[1]))
    (h : outRoom s.params (s.wpos + text.length) = true) :
    exec .pack2 s = .next (complete (storeItems text s)) := seq_emitAll _ ht h

theorem exec_pack1 (ht : text = textOf s.tag s.encLut (pack1 s.eb[0]))
    (h : outRoom s.params (s.wpos + text.length) = true) :
    exec .pack1 s = .next (complete (storeItems text s)) := seq_emitAll _ ht h

end

/-- Settles O25: with room the sextets' text is stored, and then come the dispatch's own writes. -/
theorem packDispatchesEmitTheirSextets : Obligations.PackDispatchesEmitTheirSextets :=
  fun _ => ⟨fun _ => exec_pack3, fun _ => exec_pack2, fun _ => exec_pack1, rfl, fun _ _ => rfl⟩

end Sys2Proof.Machine

/-! ## O31, O32: the micro-steps of an encode -/

namespace Sys2Proof.Machine

section
variable {s : State}

/-! ### The load micro-step -/

/-- An octet that leaves room in the group is only loaded (R81). -/
theorem microStep_load_open (hm : s.mode = .enc) (hp : s.pos < s.inLen) (hg : s.gcnt.toNat < 2) :
    microStep s = .next (loadOctet s) := by
  have select : decodeGsel (gsel (loadOctet s) false) = .ok (.noDispatch .enc (s.gcnt + 1#3)) := by
    have room : (s.gcnt + 1#3).toNat < Mode.enc.groupSize := by
      rw [toNat_gcnt_add_one (by omega)]
      exact Nat.succ_lt_succ hg
    have row := groupSelectorTruthTable .enc 0#1 (s.gcnt + 1#3)
    rw [if_pos rfl, if_pos room] at row
    rw [gsel, loadOctet_mode, hm]
    exact row
  rw [microStep_load hm hp, dispatch_ok select]
  rfl

/-- The octet is loaded at `GCNT`, which is an index of `EB` while the group has room (R81). -/
theorem loadOctet_eb_eq_set (hg : s.gcnt.toNat < 3) :
    (loadOctet s).eb = s.eb.set s.gcnt.toNat (coreReadIn s s.pos) :=
  Vector.ext fun k hk => by
    rw [loadOctet_eb, Vector.getElem_setIfInBounds, Vector.getElem_set]

/-- The octets of a full group: the two held and the one loaded. -/
theorem loadOctet_eb_of_two (hg : s.gcnt = 2#3) :
    (loadOctet s).eb = s.eb.set 2 (coreReadIn s s.pos) := by
  rw [loadOctet_eb_eq_set (by rw [hg]; decide)]
  simp only [hg]
  rfl

/-- The third octet of a group also writes the group's text and empties it (R76, R81). -/
theorem microStep_load_full {text : List CharCode} (hm : s.mode = .enc) (hp : s.pos < s.inLen)
    (hg : s.gcnt = 2#3)
    (ht : text = textOf s.tag s.encLut (pack3 s.eb[0] s.eb[1] (coreReadIn s s.pos)))
    (h : outRoom s.params (s.wpos + text.length) = true) :
    microStep s = .next { storeItems text s with
      eb := s.eb.set 2 (coreReadIn s s.pos), pos := s.pos + 1, gcnt := 0#3 } := by
  have select : decodeGsel (gsel (loadOctet s) false) = .ok .pack3 := by
    rw [gsel, loadOctet_mode, loadOctet_gcnt, hm, hg]
    rfl
  have group : text = textOf s.tag s.encLut
      (pack3 (loadOctet s).eb[0] (loadOctet s).eb[1] (loadOctet s).eb[2]) := by
    rw [loadOctet_eb_of_two hg, ht]
    simp
  rw [microStep_load hm hp, dispatch_ok select, exec_pack3 (s := loadOctet s) group h,
    ← loadOctet_eb_of_two hg]
  rfl

/-! ### The octets held -/

/-- The octets of the open group, `EB[0 .. GCNT-1]` (R22). -/
def heldOctets (s : State) : List Octet := s.eb.toList.take s.gcnt.toNat

theorem heldOctets_zero (hg : s.gcnt = 0#3) : heldOctets s = [] := by
  rw [heldOctets, hg]
  rfl

theorem eb_toList (s : State) : s.eb.toList = [s.eb[0], s.eb[1], s.eb[2]] :=
  List.ext_getElem (by simp) fun k _ hk => by
    have hk : k < 3 := hk
    interval_cases k <;> rfl

theorem heldOctets_one (hg : s.gcnt = 1#3) : heldOctets s = [s.eb[0]] := by
  rw [heldOctets, hg, eb_toList]
  rfl

theorem heldOctets_two (hg : s.gcnt = 2#3) : heldOctets s = [s.eb[0], s.eb[1]] := by
  rw [heldOctets, hg, eb_toList]
  rfl

theorem gcnt_cases {g : BitVec 3} (h : g.toNat < 3) : g = 0#3 ∨ g = 1#3 ∨ g = 2#3 := by
  revert g
  decide

/-- A loaded octet joins those held. -/
theorem heldOctets_loadOctet (hg : s.gcnt.toNat < 3) :
    heldOctets (loadOctet s) = heldOctets s ++ [coreReadIn s s.pos] := by
  have grown : (s.gcnt + 1#3).toNat = s.gcnt.toNat + 1 := toNat_gcnt_add_one (by omega)
  rw [heldOctets, heldOctets, loadOctet_gcnt, loadOctet_eb, grown]
  simp [List.take_add_one, List.take_set_of_le, hg]

/-! ### The flush micro-step -/

/-- At the end of the input the text of the octets held is written, and the operation is complete (R77, R78,
R82). -/
theorem microStep_flush_held (hm : s.mode = .enc) (hp : s.inLen ≤ s.pos) (hg : s.gcnt.toNat < 3)
    (h : outRoom s.params (s.wpos + (encodeText s.tag s.encLut (heldOctets s)).length) = true) :
    microStep s = .next (complete (storeItems (encodeText s.tag s.encLut (heldOctets s)) s)) := by
  have select {i : Instr} (hi : decodeGsel (Mode.enc.bit ++ 1#1 ++ s.gcnt) = .ok i) :
      microStep s = exec i s := by
    rw [microStep_flush hm hp]
    exact dispatch_ok (by rw [gsel, hm]; exact hi)
  obtain hg | hg | hg := gcnt_cases hg
  · rw [heldOctets_zero hg, select (i := .pack0) (by rw [hg]; rfl)]
    rfl
  · rw [heldOctets_one hg] at h ⊢
    rw [select (i := .pack1) (by rw [hg]; rfl)]
    exact exec_pack1 rfl h
  · rw [heldOctets_two hg] at h ⊢
    rw [select (i := .pack2) (by rw [hg]; rfl)]
    exact exec_pack2 rfl h

end

/-- Settles O31, by whether the loaded octet fills the group. -/
theorem encodeLoadMicroStep : Obligations.EncodeLoadMicroStep := by
  intro s hh hb hm hp
  rw [step_running hh hb]
  refine ⟨fun hg => ?_, fun text hg ht h => ?_⟩
  · rw [microStep_load_open hm hp hg, ← loadOctet_eb_eq_set]
    rfl
  · exact microStep_load_full hm hp hg ht h

/-- Settles O32: in each case the text is that of the octets held. -/
theorem encodeFlushMicroStep : Obligations.EncodeFlushMicroStep := by
  intro s text hh hb hm hp htail h
  have held : s.gcnt.toNat < 3 ∧ text = encodeText s.tag s.encLut (heldOctets s) := by
    obtain ⟨hg, rfl⟩ | ⟨hg, rfl⟩ | ⟨hg, rfl⟩ := htail
    · rw [heldOctets_two hg, hg]
      exact ⟨by decide, rfl⟩
    · rw [heldOctets_one hg, hg]
      exact ⟨by decide, rfl⟩
    · rw [heldOctets_zero hg, hg]
      exact ⟨by decide, rfl⟩
  obtain ⟨hg, rfl⟩ := held
  rw [step_running hh hb]
  exact microStep_flush_held hm hp.ge hg h

end Sys2Proof.Machine

/-! ## O37: `ENC` computes `Encode` -/

namespace Sys2Proof.Machine

theorem runCore_running {s : State} (hb : s.busy = true) (n : Nat) :
    runCore (n + 1) s = seq (microStep s) (runCore n) := if_pos hb

/-- What a running encode has yet to write the text of: the octets held and the input not yet read. -/
def pendingOctets (s : State) : List Octet := heldOctets s ++ (inputItems s).drop s.pos

section
variable {s : State}

theorem inputItems_length (s : State) : (inputItems s).length = s.inLen := by
  simp [inputItems]

/-- The input not yet read begins with the item at `POS`. -/
theorem inputItems_drop (hp : s.pos < s.inLen) :
    (inputItems s).drop s.pos = coreReadIn s s.pos :: (inputItems s).drop (s.pos + 1) := by
  rw [List.drop_eq_getElem_cons (by rwa [inputItems_length])]
  simp [inputItems]

theorem pendingOctets_at_end (hp : s.pos = s.inLen) : pendingOctets s = heldOctets s := by
  rw [pendingOctets, List.drop_of_length_le (by rw [inputItems_length, hp]), List.append_nil]

/-- Loading moves an octet from the input to the group. -/
theorem pendingOctets_loadOctet (hp : s.pos < s.inLen) (hg : s.gcnt.toNat < 3) :
    pendingOctets (loadOctet s) = pendingOctets s := by
  rw [pendingOctets, pendingOctets, heldOctets_loadOctet hg, inputItems_drop hp, List.append_assoc]
  rfl

/-- The text pending, when the next octet fills the group: the group's, and then that of the input after
it. -/
theorem encodeText_pendingOctets_full (hp : s.pos < s.inLen) (hg : s.gcnt = 2#3) :
    encodeText s.tag s.encLut (pendingOctets s) =
      textOf s.tag s.encLut (pack3 s.eb[0] s.eb[1] (coreReadIn s s.pos)) ++
        encodeText s.tag s.encLut ((inputItems s).drop (s.pos + 1)) := by
  rw [pendingOctets, heldOctets_two hg, inputItems_drop hp, encodeText, encodeText, ← textOf_append]
  rfl

/-- A running encode completes with the text of its pending octets written. -/
theorem runCore_encode (n : Nat) (hb : s.busy = true) (hm : s.mode = .enc) (hg : s.gcnt.toNat < 3)
    (hp : s.pos + n = s.inLen)
    (h : outRoom s.params (s.wpos + (encodeText s.tag s.encLut (pendingOctets s)).length) = true) :
    ∃ pos eb, runCore (n + 1) s = .next (complete
      (storeItems (encodeText s.tag s.encLut (pendingOctets s)) { s with pos := pos, eb := eb })) := by
  induction n generalizing s with
  | zero =>
    rw [pendingOctets_at_end hp] at h ⊢
    rw [runCore_running hb, microStep_flush_held hm hp.ge hg h]
    exact ⟨s.pos, s.eb, rfl⟩
  | succ n ih =>
    have hlt : s.pos < s.inLen := by omega
    have hnext : s.pos + 1 + n = s.inLen := by omega
    rw [runCore_running hb]
    by_cases hopen : s.gcnt.toNat < 2
    · have hg1 : (loadOctet s).gcnt.toNat < 3 := by
        rw [loadOctet_gcnt, toNat_gcnt_add_one (by omega)]
        omega
      rw [← pendingOctets_loadOctet hlt hg] at h ⊢
      rw [microStep_load_open hm hlt hopen, seq_next]
      exact ih (s := loadOctet s) hb hm hg1 hnext h
    · have hfull : s.gcnt = 2#3 := BitVec.eq_of_toNat_eq (by simp; omega)
      rw [encodeText_pendingOctets_full hlt hfull] at h ⊢
      rw [List.length_append, ← Nat.add_assoc] at h
      rw [microStep_load_full hm hlt hfull rfl (outRoom_of_le h (Nat.le_add_right _ _)), seq_next]
      simp only [storeItems_append]
      exact ih (s := { storeItems _ s with eb := _, pos := s.pos + 1, gcnt := 0#3 }) hb hm
        (Nat.zero_lt_succ 2) hnext h

/-- An accepted encode has nothing written and all of its input pending (R80). -/
theorem pendingOctets_acceptEnc (s : State) : pendingOctets (acceptEnc s) = inputItems s := rfl

end

/-- Items stored from the state of acceptance, and completion, finish the operation (R82, R87). -/
theorem finishedWith_complete_acceptEnc (out : List (BitVec 8)) (s : State) (pos : Nat)
    (eb : Vector Octet 3) :
    FinishedWith out s (complete (storeItems out { acceptEnc s with pos := pos, eb := eb })) :=
  ⟨by simp [complete, storeItems, acceptEnc], fun i => by simp [Mem.read_writeAll]⟩

/-- Settles O37: the accepted encode has the whole input pending, and `OUT` has room for its text. -/
theorem encComputesEncode : Obligations.EncComputesEncode := by
  intro s hb hc hcap
  have room : outRoom s.params (0 + (encodeText s.tag s.encLut (inputItems s)).length) = true := by
    refine outRoom_of_le_encMaxLen hcap ?_
    rw [Nat.zero_add, ← inputItems_length s]
    exact encodeText_length_le _ _ _
  obtain ⟨pos, eb, hrun⟩ :=
    runCore_encode (s := acceptEnc s) s.inLen rfl rfl (Nat.zero_lt_succ 2) (Nat.zero_add _)
      (by rw [pendingOctets_acceptEnc]; exact room)
  rw [pendingOctets_acceptEnc] at hrun
  have accepted : exec .enc s = runCore (s.inLen + 1) (acceptEnc s) := by
    rw [exec, execEnc, whenIdle_idle _ hb, if_pos hc]
  exact ⟨_, accepted.trans hrun, finishedWith_complete_acceptEnc _ _ _ _⟩

end Sys2Proof.Machine

/-! ## O23: unpacking inverts packing -/

namespace Sys2Proof.Machine

/-! ### The fields of a 24-bit word -/

theorem word_eq_sextets (w : BitVec 24) :
    w.extractLsb' 18 6 ++ w.extractLsb' 12 6 ++ w.extractLsb' 6 6 ++ w.extractLsb' 0 6 = w := by
  ext i hi
  simp only [BitVec.getElem_append, BitVec.getElem_extractLsb']
  interval_cases i <;> simp

theorem word_eq_octets (w : BitVec 24) :
    w.extractLsb' 16 8 ++ w.extractLsb' 8 8 ++ w.extractLsb' 0 8 = w := by
  ext i hi
  simp only [BitVec.getElem_append, BitVec.getElem_extractLsb']
  interval_cases i <;> simp

theorem unpack4_sextets_of_word (w : BitVec 24) :
    unpack4 (w.extractLsb' 18 6) (w.extractLsb' 12 6) (w.extractLsb' 6 6) (w.extractLsb' 0 6) =
      [w.extractLsb' 16 8, w.extractLsb' 8 8, w.extractLsb' 0 8] := by
  rw [packingIsBigEndian.2, word_eq_sextets]

theorem pack3_octets_of_word (w : BitVec 24) :
    pack3 (w.extractLsb' 16 8) (w.extractLsb' 8 8) (w.extractLsb' 0 8) =
      [w.extractLsb' 18 6, w.extractLsb' 12 6, w.extractLsb' 6 6, w.extractLsb' 0 6] := by
  rw [packingIsBigEndian.1, word_eq_octets]

theorem octets_of_append (a b c : Octet) : (a ++ b ++ c).extractLsb' 16 8 = a ∧
    (a ++ b ++ c).extractLsb' 8 8 = b ∧ (a ++ b ++ c).extractLsb' 0 8 = c := by
  simpa only [bitVec_append_inj_iff, and_assoc] using word_eq_octets (a ++ b ++ c)

theorem sextets_of_append (b0 b1 b2 b3 : Sextet) :
    (b0 ++ b1 ++ b2 ++ b3).extractLsb' 18 6 = b0 ∧ (b0 ++ b1 ++ b2 ++ b3).extractLsb' 12 6 = b1 ∧
      (b0 ++ b1 ++ b2 ++ b3).extractLsb' 6 6 = b2 ∧ (b0 ++ b1 ++ b2 ++ b3).extractLsb' 0 6 = b3 := by
  simpa only [bitVec_append_inj_iff, and_assoc] using word_eq_sextets (b0 ++ b1 ++ b2 ++ b3)

/-! ### Tails without excess bits -/

/-- An unshifted field fills the bits that a shifted one has left. -/
theorem append_zero_or_setWidth {m n : Nat} (high : BitVec m) (low : BitVec n) :
    (high ++ 0#n) ||| low.setWidth (m + n) = high ++ low := by
  ext i hi
  rw [BitVec.getElem_or, BitVec.getElem_append, BitVec.getElem_append, BitVec.getElem_setWidth]
  split
  · next h => simp [h]
  · next h => simp [BitVec.getLsbD_of_ge low i (Nat.not_lt.mp h)]

/-- A 3-symbol tail whose last symbol is 4 bits wide (R95). -/
theorem unpack3_low (b0 b1 : Sextet) (low : BitVec 4) :
    unpack3 b0 b1 (low.setWidth 6) = [b0 ++ b1.extractLsb' 4 2, b1.extractLsb' 0 4 ++ low] := by
  obtain ⟨-, -, unpacked, -⟩ := tailsAreUnshifted
  rw [unpacked, BitVec.setWidth_setWidth (by decide), append_zero_or_setWidth]

/-- A 2-symbol tail whose last symbol is 2 bits wide (R96). -/
theorem unpack2_low (b0 : Sextet) (low : BitVec 2) : unpack2 b0 (low.setWidth 6) = [b0 ++ low] := by
  obtain ⟨-, -, -, unpacked⟩ := tailsAreUnshifted
  rw [unpacked, BitVec.setWidth_setWidth (by decide), append_zero_or_setWidth]

/-- The 2-octet tail of the fields that a 3-symbol tail has (R77). -/
theorem pack2_append (b0 b1 : Sextet) (low : BitVec 4) :
    pack2 (b0 ++ b1.extractLsb' 4 2) (b1.extractLsb' 0 4 ++ low) = [b0, b1, low.setWidth 6] := by
  obtain ⟨packed, -, -, -⟩ := tailsAreUnshifted
  rw [packed, BitVec.extractLsb'_append_eq_left, BitVec.extractLsb'_append_eq_right,
    BitVec.extractLsb'_append_eq_left, BitVec.extractLsb'_append_eq_right,
    BitVec.extractLsb'_append_extractLsb' (w := 2) (len := 4)]

/-- The 1-octet tail of the fields that a 2-symbol tail has (R78). -/
theorem pack1_append (b0 : Sextet) (low : BitVec 2) : pack1 (b0 ++ low) = [b0, low.setWidth 6] := by
  obtain ⟨-, packed, -, -⟩ := tailsAreUnshifted
  rw [packed, BitVec.extractLsb'_append_eq_left, BitVec.extractLsb'_append_eq_right]

/-- Settles O23: a group's sextets and its octets are fields of one 24-bit word; a packed tail has no excess
bits. -/
theorem unpackInvertsPack : Obligations.UnpackInvertsPack := by
  obtain ⟨packed3, unpacked4⟩ := packingIsBigEndian
  obtain ⟨packed2, packed1, -, -⟩ := tailsAreUnshifted
  refine ⟨fun a b c => ⟨_, _, _, _, packed3 a b c, ?_⟩,
    fun b0 b1 b2 b3 => ⟨_, _, _, unpacked4 b0 b1 b2 b3, ?_⟩, fun a b => ⟨_, _, _, packed2 a b, ?_⟩,
    fun a => ⟨_, _, packed1 a, ?_⟩⟩
  · obtain ⟨ha, hb, hc⟩ := octets_of_append a b c
    rw [unpack4_sextets_of_word, ha, hb, hc]
  · obtain ⟨h0, h1, h2, h3⟩ := sextets_of_append b0 b1 b2 b3
    rw [pack3_octets_of_word, h0, h1, h2, h3]
  · rw [unpack3_low, BitVec.extractLsb'_append_eq_left, BitVec.extractLsb'_append_eq_right,
      BitVec.extractLsb'_append_extractLsb' (w := 6) (len := 2),
      BitVec.extractLsb'_append_extractLsb' (w := 4) (len := 4)]
  · rw [unpack2_low, BitVec.extractLsb'_append_extractLsb' (w := 6) (len := 2)]

end Sys2Proof.Machine

/-! ## O45, O46: the round trip and the excess bits -/

namespace Sys2Proof.Machine

theorem exceptMap_eq_ok {ε α β : Type} {f : α → β} {r : Except ε α} {b : β} (h : r.map f = .ok b) :
    ∃ a, r = .ok a ∧ f a = b := by
  cases r with
  | ok a => cases h; exact ⟨a, rfl, rfl⟩
  | error e => cases h

/-- Whole groups of 4 symbols give 3 octets each (R107). -/
theorem decMaxLen_add_four (n : Nat) : decMaxLen (n + 4) = decMaxLen n + 3 := by
  unfold decMaxLen
  rw [Nat.add_mod_right, Nat.add_div_right n (by decide)]
  omega

/-! ### Stage 1: reading symbols -/

section
variable {tag c d : CharCode} {dec : DecLut} {y : Symbol} {v : Sextet}

/-- A character other than the tag is looked up in the reverse table (R103). -/
theorem symbols_of_ne_tag (hc : c ≠ tag) (rest : List CharCode) :
    symbols tag dec (c :: rest) =
      if dec[c.toNat]'c.isLt ≠ noneMark then
        (symbols tag dec rest).map fun vs => (dec[c.toNat]'c.isLt).setWidth 6 :: vs
      else .error .unrecognizedCharacter := by
  rw [symbols.eq_def]
  exact if_neg hc

/-- Stage 1 takes a symbol of the decode table off the text, if the symbol is not the bare tag (R15, R103). -/
theorem symbols_chars_append (hy : y ≠ .direct tag) (h : decTable tag dec y = some v) (rest : List CharCode) :
    symbols tag dec (y.chars ++ rest) = (symbols tag dec rest).map fun vs => v :: vs := by
  cases y with
  | direct c =>
    have hc : c ≠ tag := fun hc => hy (congrArg _ hc)
    rw [decTable] at h
    split_ifs at h with hd
    cases h
    exact (symbols_of_ne_tag hc rest).trans (if_pos hd)
  | escaped t d =>
    obtain ⟨rfl, hv, rfl⟩ := decTable_escaped_eq_some_iff.mp h
    have escapes : v = 61#6 ∨ v = 62#6 ∨ v = 63#6 := by bv_omega
    obtain rfl | rfl | rfl := escapes
    all_goals simp [Symbol.chars, symbols, escapeDigit]

/-- An invalid escape digit (R103, R113). -/
theorem symbols_badDigit (h : decTable tag dec (.escaped tag d) = none) (rest : List CharCode) :
    symbols tag dec (tag :: d :: rest) = .error .invalidEscape := by
  rw [decTable, if_pos rfl] at h
  split_ifs at h with h1 h2 h3
  simp [symbols, h1, h2, h3]

/-- An unrecognized character (R103, R112). -/
theorem symbols_unrecognized (hc : c ≠ tag) (h : decTable tag dec (.direct c) = none) (rest : List CharCode) :
    symbols tag dec (c :: rest) = .error .unrecognizedCharacter := by
  rw [decTable] at h
  split_ifs at h with hd
  exact (symbols_of_ne_tag hc rest).trans (if_neg hd)

/-- A bare tag at the end of the text (R103, R113). -/
theorem symbols_openEscape (tag : CharCode) (dec : DecLut) :
    symbols tag dec [tag] = .error .invalidEscape := by
  simp [symbols]

end

/-- Under a decode table that inverts the encode table, stage 1 reads the sextets whose symbols the text is. -/
theorem textOf_of_symbols {tag : CharCode} {enc : EncLut} {dec : DecLut} {text : List CharCode}
    {vs : List Sextet} (inverse : ∀ y v, decTable tag dec y = some v → encTable tag enc v = y)
    (h : symbols tag dec text = .ok vs) : textOf tag enc vs = text := by
  have read {y : Symbol} {v : Sextet} {us : List Sextet} {rest : List CharCode}
      (hy : decTable tag dec y = some v) (hus : textOf tag enc us = rest) :
      textOf tag enc (v :: us) = y.chars ++ rest := by
    rw [textOf_cons, inverse y v hy, hus]
  fun_induction symbols tag dec text generalizing vs with
  | case1 => cases h; rfl
  | case3 d rest hd ih =>
    obtain ⟨us, hus, rfl⟩ := exceptMap_eq_ok h
    refine read (y := .escaped tag d) ?_ (ih hus)
    rw [decTable, if_pos rfl]
    obtain rfl | rfl | rfl := hd
    all_goals rfl
  | case5 c rest _ hd ih =>
    obtain ⟨us, hus, rfl⟩ := exceptMap_eq_ok h
    exact read (y := .direct c) (if_pos hd) (ih hus)
  | case2 | case4 | case6 => cases h

/-! ### Stage 1 under the tables of a valid tag -/

section
variable {t : CharCode}

theorem encTable_ne_tag (ht : isAlnum t = true) (v : Sextet) :
    encTable t (buildEnc (alphaIndex t)) v ≠ .direct t := fun h =>
  have ⟨hv, heq⟩ := encTable_eq_direct_iff.mp h
  buildEnc_ne_tag ht hv heq

/-- The symbols of sextets are read back, whatever text comes after them. -/
theorem symbols_textOf_append (ht : isAlnum t = true) (vs : List Sextet) (rest : List CharCode) :
    symbols t (buildDec (buildEnc (alphaIndex t))) (textOf t (buildEnc (alphaIndex t)) vs ++ rest) =
      (symbols t (buildDec (buildEnc (alphaIndex t))) rest).map fun us => vs ++ us := by
  induction vs with
  | nil => cases h : symbols t (buildDec (buildEnc (alphaIndex t))) rest <;> simp [textOf_nil, h, Except.map]
  | cons v vs ih =>
    rw [textOf_cons, List.append_assoc,
      symbols_chars_append (encTable_ne_tag ht v) (decTable_eq_some_iff.mpr rfl), ih]
    cases symbols t (buildDec (buildEnc (alphaIndex t))) rest <;> rfl

theorem symbols_textOf (ht : isAlnum t = true) (vs : List Sextet) :
    symbols t (buildDec (buildEnc (alphaIndex t))) (textOf t (buildEnc (alphaIndex t)) vs) = .ok vs := by
  simpa [symbols, Except.map] using symbols_textOf_append ht vs []

theorem symbols_eq_ok_iff (ht : isAlnum t = true) {text : List CharCode} {vs : List Sextet} :
    symbols t (buildDec (buildEnc (alphaIndex t))) text = .ok vs ↔
      textOf t (buildEnc (alphaIndex t)) vs = text :=
  ⟨textOf_of_symbols fun _ _ => decTable_eq_some_iff.mp, fun h => h ▸ symbols_textOf ht vs⟩

end

/-! ### Stage 2: groups -/

@[simp] theorem unpack4_length (b0 b1 b2 b3 : Sextet) : (unpack4 b0 b1 b2 b3).length = 3 := rfl

@[simp] theorem unpack3_length (b0 b1 b2 : Sextet) : (unpack3 b0 b1 b2).length = 2 := rfl

@[simp] theorem unpack2_length (b0 b1 : Sextet) : (unpack2 b0 b1).length = 1 := rfl

/-- What stage 2 answers: the error of a dangling symbol, or the octets of its groups (R103, R107). -/
theorem octetsOf_cases (vs : List Sextet) :
    vs.length % 4 = 1 ∧ octetsOf vs = .error .danglingSymbol ∨
      vs.length % 4 ≠ 1 ∧ ∃ out, octetsOf vs = .ok out ∧ out.length = decMaxLen vs.length := by
  induction vs using octetsOf.induct with
  | case1 => exact .inr ⟨by decide, _, rfl, rfl⟩
  | case2 => exact .inl ⟨rfl, rfl⟩
  | case3 b0 b1 => exact .inr ⟨by simp, unpack2 b0 b1, rfl, by simp [decMaxLen]⟩
  | case4 b0 b1 b2 => exact .inr ⟨by simp, unpack3 b0 b1 b2, rfl, by simp [decMaxLen]⟩
  | case5 b0 b1 b2 b3 rest ih =>
    have length : (b0 :: b1 :: b2 :: b3 :: rest).length = rest.length + 4 := rfl
    rw [octetsOf, length, Nat.add_mod_right]
    obtain ⟨hlen, h⟩ | ⟨hlen, out, h, hout⟩ := ih
    · exact .inl ⟨hlen, by rw [h]; rfl⟩
    · exact .inr ⟨hlen, unpack4 b0 b1 b2 b3 ++ out, by rw [h]; rfl, by
        rw [decMaxLen_add_four, ← hout, List.length_append, unpack4_length, Nat.add_comm]⟩

/-- Stage 2 undoes the packing of octets into sextets (R104). -/
theorem octetsOf_sextets (b : List Octet) : octetsOf (sextets b) = .ok b := by
  obtain ⟨group, -, tail2, tail1⟩ := unpackInvertsPack
  induction b using sextets.induct with
  | case1 => rfl
  | case2 a =>
    obtain ⟨s0, s1, hp, hu⟩ := tail1 a
    rw [sextets, hp, octetsOf, hu]
  | case3 a b =>
    obtain ⟨s0, s1, s2, hp, hu⟩ := tail2 a b
    rw [sextets, hp, octetsOf, hu]
  | case4 a b c rest ih =>
    obtain ⟨s0, s1, s2, s3, hp, hu⟩ := group a b c
    rw [sextets, hp]
    simp only [List.cons_append, List.nil_append]
    rw [octetsOf, ih, hu]
    rfl

/-! ### Excess bits -/

theorem excessTail_group (b0 b1 b2 b3 : Sextet) (rest : List Sextet) :
    excessTail (b0 :: b1 :: b2 :: b3 :: rest) = excessTail rest := by
  have length : (b0 :: b1 :: b2 :: b3 :: rest).length = rest.length + 4 := rfl
  cases rest with
  | nil => simp [excessTail]
  | cons v rest =>
    rw [excessTail, excessTail, length, Nat.add_mod_right]
    rfl

/-- Packed octets have no excess bits (R77, R78, R105). -/
theorem excessTail_sextets (b : List Octet) : excessTail (sextets b) = false := by
  induction b using sextets.induct with
  | case1 => rfl
  | case2 a =>
    revert a
    decide
  | case3 a b =>
    have last : ∀ b : Octet, ((b &&& 0xF#8).setWidth 6).toNat < 16 := by decide
    simpa [sextets, pack2, excessTail] using last b
  | case4 a b c rest ih =>
    rw [sextets, pack3]
    exact (excessTail_group _ _ _ _ _).trans ih

/-- Without excess bits, packing undoes stage 2 (R105). -/
theorem sextets_of_octetsOf {vs : List Sextet} {out : List Octet} (h : octetsOf vs = .ok out)
    (hexcess : excessTail vs = false) : sextets out = vs := by
  obtain ⟨-, group, -, -⟩ := unpackInvertsPack
  induction vs using octetsOf.induct generalizing out with
  | case1 => cases h; rfl
  | case2 => cases h
  | case3 b0 b1 =>
    cases h
    have low : b1 = (b1.setWidth 2).setWidth 6 := by
      have : b1.toNat < 4 := by simpa [excessTail] using hexcess
      bv_omega
    rw [low, unpack2_low, sextets, pack1_append]
  | case4 b0 b1 b2 =>
    cases h
    have low : b2 = (b2.setWidth 4).setWidth 6 := by
      have : b2.toNat < 16 := by simpa [excessTail] using hexcess
      bv_omega
    rw [low, unpack3_low, sextets, pack2_append]
  | case5 b0 b1 b2 b3 rest ih =>
    obtain ⟨os, hos, rfl⟩ := exceptMap_eq_ok h
    rw [excessTail_group] at hexcess
    obtain ⟨x, y, z, hu, hp⟩ := group b0 b1 b2 b3
    rw [hu]
    exact (congrArg₂ (· ++ ·) hp (ih hos hexcess))

/-! ### The two stages -/

theorem decodeText_of_symbols {tag : CharCode} {dec : DecLut} {text : List CharCode} {vs : List Sextet}
    (h : symbols tag dec text = .ok vs) : decodeText tag dec text = octetsOf vs := by
  rw [decodeText, h]

/-- Settles O45: stage 1 reads the sextets back, and stage 2 the octets. -/
theorem roundTripLaw : Obligations.RoundTripLaw := by
  intro t b ht
  exact (decodeText_of_symbols (symbols_textOf ht _)).trans (octetsOf_sextets b)

/-- A text is the encoding of exactly the octets whose sextets are its symbols. -/
theorem encodeFor_eq_iff {t : CharCode} {text : List CharCode} {vs : List Sextet} (ht : isAlnum t = true)
    (h : symbols t (buildDec (buildEnc (alphaIndex t))) text = .ok vs) (b : List Octet) :
    encodeFor t b = text ↔ sextets b = vs := by
  rw [encodeFor, encodeText, ← symbols_eq_ok_iff ht, h, Except.ok.injEq, eq_comm]

/-- Settles O46: the sextets of octets have no excess bits, and sextets without them are those of their
octets. -/
theorem excessTailsDecodeThoughNotEncoded : Obligations.ExcessTailsDecodeThoughNotEncoded := by
  intro t text vs ht h hlen
  obtain ⟨hdangling, -⟩ | ⟨-, out, hout, -⟩ := octetsOf_cases vs
  · exact absurd hdangling hlen
  refine ⟨out, (decodeText_of_symbols h).trans hout, ?_⟩
  simp only [encodeFor_eq_iff ht h]
  have canonical : (∃ b, sextets b = vs) → excessTail vs = false :=
    fun ⟨b, hb⟩ => hb ▸ excessTail_sextets b
  exact ⟨⟨canonical, fun he => ⟨out, sextets_of_octetsOf hout he⟩⟩,
    fun hb => canonical ⟨out, hb⟩, sextets_of_octetsOf hout⟩

end Sys2Proof.Machine

/-! ## O47, O49: the first defect, and the length of decoded data -/

namespace Sys2Proof.Machine

theorem decodeText_of_symbols_error {tag : CharCode} {dec : DecLut} {text : List CharCode} {e : ErrCode}
    (h : symbols tag dec text = .error e) : decodeText tag dec text = .error e := by
  rw [decodeText, h]

/-- Stage 1 never reports a dangling symbol (R103). -/
theorem symbols_ne_dangling (tag : CharCode) (dec : DecLut) (text : List CharCode) :
    symbols tag dec text ≠ .error .danglingSymbol := by
  have mapped {r : Except ErrCode (List Sextet)} {f : List Sextet → List Sextet}
      (hr : r ≠ .error .danglingSymbol) : r.map f ≠ .error .danglingSymbol := by
    cases r with
    | ok vs => exact nofun
    | error e => exact hr
  fun_induction symbols tag dec text with
  | case3 d rest _ ih => exact mapped ih
  | case5 c rest _ _ ih => exact mapped ih
  | case1 | case2 | case4 | case6 => exact nofun

theorem octetsOf_eq_dangling_iff (vs : List Sextet) :
    octetsOf vs = .error .danglingSymbol ↔ vs.length % 4 = 1 := by
  obtain ⟨hlen, h⟩ | ⟨hlen, out, h, -⟩ := octetsOf_cases vs
  · exact iff_of_true h hlen
  · exact iff_of_false (by rw [h]; exact nofun) hlen

/-- A decode fails as a dangling symbol when stage 1 accepts the text and leaves one symbol (R103, R114). -/
theorem decodeText_eq_dangling_iff {tag : CharCode} {dec : DecLut} {text : List CharCode} :
    decodeText tag dec text = .error .danglingSymbol ↔
      ∃ vs, symbols tag dec text = .ok vs ∧ vs.length % 4 = 1 := by
  cases h : symbols tag dec text with
  | ok vs => rw [decodeText_of_symbols h, octetsOf_eq_dangling_iff]; simp
  | error e =>
    have accepted := symbols_ne_dangling tag dec text
    rw [h] at accepted
    rw [decodeText_of_symbols_error h]
    exact iff_of_false (by simpa using accepted) (by simp)

section
variable {t c : CharCode}

/-- A defect after accepted text is the one reported (R108). -/
theorem decodeFor_append_of_defect (ht : isAlnum t = true) {good rest : List CharCode} {vs : List Sextet}
    {e : ErrCode} (hgood : symbols t (buildDec (buildEnc (alphaIndex t))) good = .ok vs)
    (hrest : symbols t (buildDec (buildEnc (alphaIndex t))) rest = .error e) :
    decodeFor t (good ++ rest) = .error e := by
  refine decodeText_of_symbols_error ?_
  rw [← (symbols_eq_ok_iff ht).mp hgood, symbols_textOf_append ht, hrest]
  rfl

/-- A character outside the alphabet has no entry (R7, R68). -/
theorem decTable_not_alnum (ht : isAlnum t = true) (hc : isAlnum c = false) :
    decTable t (buildDec (buildEnc (alphaIndex t))) (.direct c) = none :=
  Option.eq_none_iff_forall_not_mem.mpr fun v hv => by
    obtain ⟨hlt, heq⟩ := decTable_direct_eq_some_iff.mp hv
    have halnum := ((mem_buildEnc_iff ht).mp ⟨⟨v.toNat, hlt⟩, heq⟩).1
    rw [hc] at halnum
    cases halnum

end

/-- Settles O47: what stage 1 accepts is text of symbols, after which the defect is the first thing read. -/
theorem firstDefectIsReported : Obligations.FirstDefectIsReported := by
  intro t good vs ht hgood
  refine ⟨fun c rest hc => ?_, fun d rest h1 h2 h3 => ?_, ?_, ?_, fun text h => ?_⟩
  · have hne : c ≠ t := fun h => by rw [h, ht] at hc; cases hc
    exact decodeFor_append_of_defect ht hgood (symbols_unrecognized hne (decTable_not_alnum ht hc) rest)
  · exact decodeFor_append_of_defect ht hgood (symbols_badDigit (by simp [decTable, h1, h2, h3]) rest)
  · exact decodeFor_append_of_defect ht hgood (symbols_openEscape _ _)
  · rw [decodeFor, decodeText_of_symbols hgood, octetsOf_eq_dangling_iff]
  · obtain ⟨us, hus, -⟩ := decodeText_eq_dangling_iff.mp h
    exact ⟨us, hus⟩

theorem decMaxLen_mono {m n : Nat} (h : m ≤ n) : decMaxLen m ≤ decMaxLen n := by
  unfold decMaxLen
  split_ifs <;> omega

/-- Settles O49: the text has a character per symbol and one more per escape, and each group of symbols its
octets. -/
theorem decodedLength : Obligations.DecodedLength := by
  intro t text out ht h
  cases hvs : symbols t (buildDec (buildEnc (alphaIndex t))) text with
  | error e =>
    cases (decodeText_of_symbols_error hvs).symm.trans h
  | ok vs =>
    have hlen : text.length = vs.length + vs.countP isEscaped := by
      rw [← (symbols_eq_ok_iff ht).mp hvs, textOf_length]
    have hout := (decodeText_of_symbols hvs).symm.trans h
    obtain ⟨-, hdangling⟩ | ⟨hmod, os, hos, hdec⟩ := octetsOf_cases vs
    · cases hdangling.symm.trans hout
    · cases hos.symm.trans hout
      exact ⟨vs, rfl, hlen.symm, hmod, hdec, hdec.trans_le (decMaxLen_mono (by omega))⟩

end Sys2Proof.Machine

/-! ## O26 to O28: the unpack dispatches and the character selections -/

namespace Sys2Proof.Machine

section
variable {s : State}

/-- Where there is room, items put are stored. -/
theorem seq_putItems {l : List (BitVec 8)} (k : State → Result)
    (h : outRoom s.params (s.wpos + l.length) = true) : seq (putItems l s) k = k (storeItems l s) := by
  rw [putItems_room h, seq_next]

theorem exec_unpack4 (h : outRoom s.params (s.wpos + 3) = true) :
    exec .unpack4 s =
      .next { storeItems (unpack4 s.ds[0] s.ds[1] s.ds[2] s.ds[3]) s with gcnt := 0#3 } := seq_putItems _ h

theorem exec_unpack3 (h : outRoom s.params (s.wpos + 2) = true) :
    exec .unpack3 s = .next (complete (storeItems (unpack3 s.ds[0] s.ds[1] s.ds[2]) s)) := seq_putItems _ h

theorem exec_unpack2 (h : outRoom s.params (s.wpos + 1) = true) :
    exec .unpack2 s = .next (complete (storeItems (unpack2 s.ds[0] s.ds[1]) s)) := seq_putItems _ h

/-- A symbol joins the group at `GCNT`, which is an index of `DS` while the group has room (R100). -/
theorem pushSymbol_ds_eq_set (hg : s.gcnt.toNat < 4) (v : Sextet) :
    (pushSymbol v s).ds = s.ds.set s.gcnt.toNat v :=
  Vector.ext fun k hk => by rw [pushSymbol_ds, Vector.getElem_setIfInBounds, Vector.getElem_set]

theorem pushSymbol_eq (hg : s.gcnt.toNat < 4) (v : Sextet) :
    pushSymbol v s = { s with ds := s.ds.set s.gcnt.toNat v, gcnt := s.gcnt + 1#3 } := by
  rw [← pushSymbol_ds_eq_set hg]
  rfl

theorem resolveEscape_eq (hg : s.gcnt.toNat < 4) (v : Sextet) :
    resolveEscape v s =
      { s with ds := s.ds.set s.gcnt.toNat v, gcnt := s.gcnt + 1#3, escPend := false } := by
  rw [← pushSymbol_ds_eq_set hg]
  rfl

/-- With no escape pending there is none to resolve. -/
theorem resolveEscape_of_plain (he : s.escPend = false) (v : Sextet) : resolveEscape v s = pushSymbol v s := by
  rw [resolveEscape, ← he]
  rfl

theorem exec_clsDirect {c : CharCode} (h : s.decLut[c.toNat]'c.isLt ≠ noneMark) :
    exec (.clsDirect c) s = .next (pushSymbol ((s.decLut[c.toNat]'c.isLt).setWidth 6) s) := if_pos h

theorem abortedAs_abort (e : ErrCode) (s : State) : AbortedAs e s (abort e s) := rfl

end

/-- Settles O26: with room the octets are stored, and then come the dispatch's own writes. -/
theorem unpackDispatchesWriteTheirOctets : Obligations.UnpackDispatchesWriteTheirOctets :=
  fun _ => ⟨exec_unpack4, exec_unpack3, exec_unpack2, rfl⟩

/-- Settles O27: the tag only sets `ESC_PEND`, and a symbol joins the group. -/
theorem characterSelectionsAct : Obligations.CharacterSelectionsAct := by
  intro s c hg
  simp only [← pushSymbol_eq hg, ← resolveEscape_eq hg]
  exact ⟨rfl, exec_clsDirect, rfl, rfl, rfl⟩

/-- Settles O28: each of the three is an abort, after which `OUT_LEN` is 0. -/
theorem decodeErrorsAbort : Obligations.DecodeErrorsAbort := by
  intro s c
  have unreadable (e : ErrCode) : ∀ i, hostReadOut (abort e s) i = none := hostReadOut_of_outLen rfl
  exact ⟨⟨_, rfl, abortedAs_abort _ s, unreadable _⟩, ⟨_, rfl, abortedAs_abort _ s, unreadable _⟩,
    _, rfl, abortedAs_abort _ s, unreadable _⟩

end Sys2Proof.Machine

/-! ## O33, O34: the micro-steps of a decode -/

namespace Sys2Proof.Machine

/-- The symbol that the character `c` completes: the pending escape, or a direct symbol (R15, R100). It is the
direct symbol of the tag when `c` begins an escape. -/
def symbolAt (s : State) (c : CharCode) : Symbol := if s.escPend then .escaped s.tag c else .direct c

/-- The error of a symbol that has no entry in the decode table (R112, R113). -/
def Symbol.defect : Symbol → ErrCode
  | .direct _ => .unrecognizedCharacter
  | .escaped _ _ => .invalidEscape

section
variable {s : State} {c : CharCode} {v : Sextet}

theorem symbolAt_pending (he : s.escPend = true) (c : CharCode) : symbolAt s c = .escaped s.tag c :=
  if_pos he

theorem symbolAt_plain (he : s.escPend = false) (c : CharCode) : symbolAt s c = .direct c :=
  if_neg (Bool.eq_false_iff.mp he)

theorem symbolAt_eq_tag_iff : symbolAt s c = .direct s.tag ↔ s.escPend = false ∧ c = s.tag := by
  cases he : s.escPend with
  | false => simp [symbolAt_plain he]
  | true => simp [symbolAt_pending he]

/-- A character read as `v` completes the symbol of `v` (R91, R92). -/
theorem symbol_of_read
    (h : s.escPend = true ∧ (c = 0x31#8 ∧ v = 61#6 ∨ c = 0x32#8 ∧ v = 62#6 ∨ c = 0x33#8 ∧ v = 63#6) ∨
      s.escPend = false ∧ c ≠ s.tag ∧ s.decLut[c.toNat]'c.isLt ≠ 0xFF#8 ∧
        v = (s.decLut[c.toNat]'c.isLt).setWidth 6) :
    symbolAt s c ≠ .direct s.tag ∧ decTable s.tag s.decLut (symbolAt s c) = some v := by
  obtain ⟨he, hdigit⟩ | ⟨he, hc, hd, rfl⟩ := h
  · rw [symbolAt_pending he, decTable, if_pos rfl]
    refine ⟨nofun, ?_⟩
    obtain ⟨rfl, rfl⟩ | ⟨rfl, rfl⟩ | ⟨rfl, rfl⟩ := hdigit
    all_goals rfl
  · rw [symbolAt_plain he]
    exact ⟨fun h => hc (Symbol.direct.inj h), if_pos hd⟩

/-! ### What a character selects, by the symbol it completes -/

/-- The tag begins an escape (R91, R100). -/
theorem exec_selectChar_tag (h : symbolAt s c = .direct s.tag) (u : State) :
    exec (selectChar c s) u = .next { u with escPend := true } := by
  obtain ⟨he, hc⟩ := symbolAt_eq_tag_iff.mp h
  rw [selectChar, he, if_neg Bool.false_ne_true, decodeClassify, if_pos hc]
  rfl

/-- A symbol of the decode table joins the group, and no escape is pending after it (R91, R92, R100). -/
theorem exec_selectChar_symbol {u : State} (hlut : u.decLut = s.decLut) (hu : u.escPend = s.escPend)
    (hy : symbolAt s c ≠ .direct s.tag) (hv : decTable s.tag s.decLut (symbolAt s c) = some v) :
    exec (selectChar c s) u = .next (resolveEscape v u) := by
  cases he : s.escPend with
  | true =>
    rw [symbolAt_pending he, decTable, if_pos rfl] at hv
    rw [selectChar, he, if_pos rfl, decodeEscDigit]
    split_ifs at hv ⊢
    all_goals
      cases hv
      rfl
  | false =>
    rw [symbolAt_plain he] at hy hv
    have hc : c ≠ s.tag := fun hc => hy (congrArg _ hc)
    rw [decTable, ← hlut] at hv
    split_ifs at hv with hd
    cases hv
    rw [selectChar, he, if_neg Bool.false_ne_true, decodeClassify, if_neg hc, ← hlut, if_pos hd,
      exec_clsDirect hd, resolveEscape_of_plain (hu.trans he)]

/-- A symbol without an entry aborts the decode (R102, R112, R113). -/
theorem exec_selectChar_defect (hy : symbolAt s c ≠ .direct s.tag)
    (hv : decTable s.tag s.decLut (symbolAt s c) = none) (u : State) :
    exec (selectChar c s) u = .next (abort (symbolAt s c).defect u) := by
  cases he : s.escPend with
  | true =>
    rw [symbolAt_pending he] at hv ⊢
    rw [decTable, if_pos rfl] at hv
    rw [selectChar, he, if_pos rfl, decodeEscDigit]
    split_ifs at hv ⊢
    rfl
  | false =>
    rw [symbolAt_plain he] at hy hv ⊢
    have hc : c ≠ s.tag := fun hc => hy (congrArg _ hc)
    rw [decTable] at hv
    split_ifs at hv with hd
    rw [selectChar, he, if_neg Bool.false_ne_true, decodeClassify, if_neg hc, if_neg hd]
    rfl

/-! ### The character micro-step -/

/-- A group with room is left alone before the end of the input (R54). -/
theorem dispatch_decode_open (hm : s.mode = .dec) (hg : s.gcnt.toNat < 4) : dispatch false s = .next s := by
  have select : decodeGsel (gsel s false) = .ok (.noDispatch .dec s.gcnt) := by
    have row := groupSelectorTruthTable .dec 0#1 s.gcnt
    rw [if_pos rfl, if_pos (show s.gcnt.toNat < Mode.dec.groupSize from hg)] at row
    rw [gsel, hm]
    exact row
  rw [dispatch_ok select]
  rfl

theorem dispatch_decode_full (hm : s.mode = .dec) (hg : s.gcnt = 4#3) :
    dispatch false s = exec .unpack4 s := by
  have select : decodeGsel (gsel s false) = .ok .unpack4 := by
    rw [gsel, hm, hg]
    rfl
  exact dispatch_ok select

/-- The symbols of a full group: the three held and the one that joins. -/
theorem resolveEscape_ds_of_three (hg : s.gcnt = 3#3) (v : Sextet) :
    (resolveEscape v s).ds = s.ds.set 3 v := by
  rw [resolveEscape_eq (by rw [hg]; decide)]
  simp only [hg]
  rfl

section
variable (hb : s.busy = true) (hm : s.mode = .dec) (hp : s.pos < s.inLen)
include hb hm hp

theorem microStep_char_tag (hg : s.gcnt.toNat < 4)
    (hy : symbolAt s (coreReadIn s s.pos) = .direct s.tag) :
    microStep s = .next { s with pos := s.pos + 1, escPend := true } := by
  rw [microStep_char hm hp, charStep_of_selected (exec_selectChar_tag hy _), if_pos hb]
  exact dispatch_decode_open hm hg

/-- A symbol joins the group, and the dispatch follows. -/
theorem microStep_char_symbol (hy : symbolAt s (coreReadIn s s.pos) ≠ .direct s.tag)
    (hv : decTable s.tag s.decLut (symbolAt s (coreReadIn s s.pos)) = some v) :
    microStep s = dispatch false (resolveEscape v { s with pos := s.pos + 1 }) := by
  rw [microStep_char hm hp, charStep_of_selected (exec_selectChar_symbol rfl rfl hy hv)]
  exact if_pos hb

/-- A symbol that leaves room in the group only joins it. -/
theorem microStep_char_open (hg : s.gcnt.toNat < 3)
    (hy : symbolAt s (coreReadIn s s.pos) ≠ .direct s.tag)
    (hv : decTable s.tag s.decLut (symbolAt s (coreReadIn s s.pos)) = some v) :
    microStep s = .next (resolveEscape v { s with pos := s.pos + 1 }) := by
  have room : (s.gcnt + 1#3).toNat < 4 := by
    rw [toNat_gcnt_add_one (by omega)]
    omega
  rw [microStep_char_symbol hb hm hp hy hv]
  exact dispatch_decode_open hm room

/-- The fourth symbol of a group also writes the group's octets and empties it (R94, R100). -/
theorem microStep_char_full (hg : s.gcnt = 3#3)
    (hy : symbolAt s (coreReadIn s s.pos) ≠ .direct s.tag)
    (hv : decTable s.tag s.decLut (symbolAt s (coreReadIn s s.pos)) = some v)
    (h : outRoom s.params (s.wpos + 3) = true) :
    microStep s = .next { storeItems (unpack4 s.ds[0] s.ds[1] s.ds[2] v) s with
      pos := s.pos + 1, ds := s.ds.set 3 v, gcnt := 0#3, escPend := false } := by
  have full : (resolveEscape v { s with pos := s.pos + 1 }).gcnt = 4#3 := by
    rw [resolveEscape_gcnt, hg]
    rfl
  have joined : (resolveEscape v { s with pos := s.pos + 1 }).ds = s.ds.set 3 v :=
    resolveEscape_ds_of_three (s := { s with pos := s.pos + 1 }) hg v
  have group (ds : Vector Sextet 4) (h : ds = s.ds.set 3 v) :
      unpack4 ds[0] ds[1] ds[2] ds[3] = unpack4 s.ds[0] s.ds[1] s.ds[2] v := by
    simp [h]
  rw [microStep_char_symbol hb hm hp hy hv,
    dispatch_decode_full (s := resolveEscape v { s with pos := s.pos + 1 }) hm full,
    exec_unpack4 (s := resolveEscape v { s with pos := s.pos + 1 }) h, group _ joined, ← joined]
  rfl

omit hb in
theorem microStep_char_defect (hy : symbolAt s (coreReadIn s s.pos) ≠ .direct s.tag)
    (hv : decTable s.tag s.decLut (symbolAt s (coreReadIn s s.pos)) = none) :
    microStep s = .next (abort (symbolAt s (coreReadIn s s.pos)).defect { s with pos := s.pos + 1 }) := by
  rw [microStep_char hm hp, charStep_of_selected (exec_selectChar_defect hy hv _)]
  exact if_neg Bool.false_ne_true

end

/-! ### The symbols held -/

/-- The symbols of the open group, `DS[0 .. GCNT-1]` (R23). -/
def heldSymbols (s : State) : List Sextet := s.ds.toList.take s.gcnt.toNat

theorem ds_toList (s : State) : s.ds.toList = [s.ds[0], s.ds[1], s.ds[2], s.ds[3]] :=
  List.ext_getElem (by simp) fun k _ hk => by
    have hk : k < 4 := hk
    interval_cases k <;> rfl

theorem heldSymbols_zero (hg : s.gcnt = 0#3) : heldSymbols s = [] := by
  rw [heldSymbols, hg]
  rfl

theorem heldSymbols_one (hg : s.gcnt = 1#3) : heldSymbols s = [s.ds[0]] := by
  rw [heldSymbols, hg, ds_toList]
  rfl

theorem heldSymbols_two (hg : s.gcnt = 2#3) : heldSymbols s = [s.ds[0], s.ds[1]] := by
  rw [heldSymbols, hg, ds_toList]
  rfl

theorem heldSymbols_three (hg : s.gcnt = 3#3) : heldSymbols s = [s.ds[0], s.ds[1], s.ds[2]] := by
  rw [heldSymbols, hg, ds_toList]
  rfl

theorem gcnt_cases_of_decode {g : BitVec 3} (h : g.toNat < 4) : g = 0#3 ∨ g = 1#3 ∨ g = 2#3 ∨ g = 3#3 := by
  revert g
  decide

/-- A symbol that joins the group joins those held. -/
theorem heldSymbols_resolveEscape (hg : s.gcnt.toNat < 4) (v : Sextet) :
    heldSymbols (resolveEscape v s) = heldSymbols s ++ [v] := by
  have grown : (s.gcnt + 1#3).toNat = s.gcnt.toNat + 1 := toNat_gcnt_add_one (by omega)
  rw [heldSymbols, heldSymbols, resolveEscape_gcnt, resolveEscape_ds, grown]
  simp [List.take_add_one, List.take_set_of_le, hg]

/-! ### The end micro-step -/

section
variable (hm : s.mode = .dec) (hp : s.inLen ≤ s.pos)
include hm hp

/-- A pending escape at the end of the input aborts, whatever the group holds (R101). -/
theorem microStep_end_pending (he : s.escPend = true) : microStep s = .next (abort .invalidEscape s) := by
  rw [microStep_end hm hp, endStep, if_pos he, raiseError_invalidEscape]

theorem microStep_end_selected (he : s.escPend = false) {i : Instr}
    (hi : decodeGsel (Mode.dec.bit ++ 1#1 ++ s.gcnt) = .ok i) : microStep s = exec i s := by
  rw [microStep_end hm hp, endStep, if_neg (Bool.eq_false_iff.mp he)]
  exact dispatch_ok (by rw [gsel, hm]; exact hi)

/-- One symbol left at the end of the input aborts (R97, R101). -/
theorem microStep_end_dangling (he : s.escPend = false) (hg : s.gcnt = 1#3) :
    microStep s = .next (abort .danglingSymbol s) := by
  rw [microStep_end_selected hm hp he (i := .unpack1) (by rw [hg]; rfl)]
  rfl

/-- At the end of the input the octets of the symbols held are written, and the operation is complete (R95,
R96, R98, R101). -/
theorem microStep_end_held (he : s.escPend = false) (hg : s.gcnt.toNat < 4) {out : List Octet}
    (hout : octetsOf (heldSymbols s) = .ok out) (h : outRoom s.params (s.wpos + out.length) = true) :
    microStep s = .next (complete (storeItems out s)) := by
  obtain hg | hg | hg | hg := gcnt_cases_of_decode hg
  · rw [heldSymbols_zero hg] at hout
    cases hout
    rw [microStep_end_selected hm hp he (i := .unpack0) (by rw [hg]; rfl)]
    rfl
  · rw [heldSymbols_one hg] at hout
    cases hout
  · rw [heldSymbols_two hg] at hout
    cases hout
    rw [microStep_end_selected hm hp he (i := .unpack2) (by rw [hg]; rfl), exec_unpack2 h]
  · rw [heldSymbols_three hg] at hout
    cases hout
    rw [microStep_end_selected hm hp he (i := .unpack3) (by rw [hg]; rfl), exec_unpack3 h]

end

end

/-- Settles O33, by the symbol that the character completes. -/
theorem decodeCharacterMicroStep : Obligations.DecodeCharacterMicroStep := by
  intro s c hh hb hm hp hg hc
  subst hc
  rw [step_running hh hb]
  refine ⟨fun he hc => microStep_char_tag hb hm hp hg (symbolAt_eq_tag_iff.mpr ⟨he, hc⟩),
    fun v hread => ?_, fun he h1 h2 h3 => ?_, fun he hc hd => ?_⟩
  · obtain ⟨hy, hv⟩ := symbol_of_read hread
    refine ⟨fun hopen => ?_, fun hfull h => microStep_char_full hb hm hp hfull hy hv h⟩
    rw [microStep_char_open hb hm hp hopen hy hv, resolveEscape_eq (s := { s with pos := s.pos + 1 }) hg]
  · rw [microStep_char_defect hm hp, symbolAt_pending he]
    · exact ⟨_, rfl, rfl⟩
    · rw [symbolAt_pending he]; exact nofun
    · rw [symbolAt_pending he]; simp [decTable, h1, h2, h3]
  · rw [microStep_char_defect hm hp, symbolAt_plain he]
    · exact ⟨_, rfl, rfl⟩
    · rw [symbolAt_plain he]; exact fun h => hc (Symbol.direct.inj h)
    · rw [symbolAt_plain he]; exact if_neg (not_not.mpr hd)

/-- Settles O34: the pending escape comes first, and then the group at its count. -/
theorem decodeEndMicroStep : Obligations.DecodeEndMicroStep := by
  intro s hh hb hm hp
  rw [step_running hh hb]
  refine ⟨fun he => ⟨_, microStep_end_pending hm hp.ge he, abortedAs_abort _ s⟩,
    fun he hg => ⟨_, microStep_end_dangling hm hp.ge he hg, abortedAs_abort _ s⟩, fun out he htail h => ?_⟩
  have held : s.gcnt.toNat < 4 ∧ octetsOf (heldSymbols s) = .ok out := by
    obtain ⟨hg, rfl⟩ | ⟨hg, rfl⟩ | ⟨hg, rfl⟩ := htail
    · rw [heldSymbols_three hg, hg]
      exact ⟨by decide, rfl⟩
    · rw [heldSymbols_two hg, hg]
      exact ⟨by decide, rfl⟩
    · rw [heldSymbols_zero hg, hg]
      exact ⟨by decide, rfl⟩
  obtain ⟨hg, hout⟩ := held
  exact microStep_end_held hm hp.ge he hg hout h

end Sys2Proof.Machine

/-! ## O38: `DEC` computes `Decode` -/

namespace Sys2Proof.Machine

/-- The text a running decode has yet to read: the tag of a pending escape, and the input not yet read. -/
def pendingText (s : State) : List CharCode :=
  (if s.escPend then [s.tag] else []) ++ (inputItems s).drop s.pos

/-- What a running decode has yet to answer: stage 2 over the symbols held and those of the pending text. -/
def pendingDecode (s : State) : Except ErrCode (List Octet) :=
  (symbols s.tag s.decLut (pendingText s)).bind fun vs => octetsOf (heldSymbols s ++ vs)

/-- `t` is the end of the running decode `s` whose answer is the third argument: completion with its octets
written, or an abort with its error (R101, R102). -/
def EndsAs (s t : State) : Except ErrCode (List Octet) → Prop
  | .ok out => ∃ pos ds, t = complete (storeItems out { s with pos := pos, ds := ds, escPend := false })
  | .error e => AbortedAs e s t

section
variable {s t : State} {r : Except ErrCode (List Octet)}

/-! ### The end of a decode, from a later state -/

theorem EndsAs.of_read {pos : Nat} {ds : Vector Sextet 4} {g : BitVec 3} {p : Bool}
    (h : EndsAs { s with pos := pos, ds := ds, gcnt := g, escPend := p } t r) : EndsAs s t r := by
  cases r with
  | ok out =>
    obtain ⟨pos, ds, rfl⟩ := h
    exact ⟨pos, ds, rfl⟩
  | error e => exact h

/-- Octets written earlier come before the rest. -/
theorem EndsAs.of_written {l : List Octet} {pos : Nat} {ds : Vector Sextet 4} {g : BitVec 3} {p : Bool}
    (h : EndsAs { storeItems l s with pos := pos, ds := ds, gcnt := g, escPend := p } t r) :
    EndsAs s t (r.map fun out => l ++ out) := by
  cases r with
  | ok out =>
    obtain ⟨pos, ds, rfl⟩ := h
    refine ⟨pos, ds, ?_⟩
    rw [storeItems_append]
    rfl
  | error e => exact h

/-! ### The pending text, character by character -/

/-- The pending text begins with the symbol that the item at `POS` completes. -/
theorem pendingText_eq (hp : s.pos < s.inLen) :
    pendingText s = (symbolAt s (coreReadIn s s.pos)).chars ++ (inputItems s).drop (s.pos + 1) := by
  rw [pendingText, inputItems_drop hp]
  cases he : s.escPend with
  | false => rw [symbolAt_plain he]; rfl
  | true => rw [symbolAt_pending he]; rfl

theorem pendingDecode_tag (hp : s.pos < s.inLen) (hy : symbolAt s (coreReadIn s s.pos) = .direct s.tag) :
    pendingDecode { s with pos := s.pos + 1, escPend := true } = pendingDecode s := by
  rw [pendingDecode, pendingDecode, pendingText_eq hp, hy]
  rfl

theorem symbols_pendingText {v : Sextet} (hp : s.pos < s.inLen)
    (hy : symbolAt s (coreReadIn s s.pos) ≠ .direct s.tag)
    (hv : decTable s.tag s.decLut (symbolAt s (coreReadIn s s.pos)) = some v) :
    symbols s.tag s.decLut (pendingText s) =
      (symbols s.tag s.decLut ((inputItems s).drop (s.pos + 1))).map fun vs => v :: vs := by
  rw [pendingText_eq hp, symbols_chars_append hy hv]

theorem pendingDecode_symbol {v : Sextet} (hp : s.pos < s.inLen) (hg : s.gcnt.toNat < 4)
    (hy : symbolAt s (coreReadIn s s.pos) ≠ .direct s.tag)
    (hv : decTable s.tag s.decLut (symbolAt s (coreReadIn s s.pos)) = some v) :
    pendingDecode (resolveEscape v { s with pos := s.pos + 1 }) = pendingDecode s := by
  rw [pendingDecode, pendingDecode, symbols_pendingText hp hy hv,
    heldSymbols_resolveEscape (s := { s with pos := s.pos + 1 }) hg]
  show (symbols s.tag s.decLut ((inputItems s).drop (s.pos + 1))).bind _ = _
  cases symbols s.tag s.decLut ((inputItems s).drop (s.pos + 1)) with
  | ok vs => exact congrArg octetsOf (List.append_assoc _ [v] vs)
  | error e => rfl

/-- When the symbol fills the group, the group's octets come first. -/
theorem pendingDecode_full {v : Sextet} (hp : s.pos < s.inLen) (hg : s.gcnt = 3#3)
    (hy : symbolAt s (coreReadIn s s.pos) ≠ .direct s.tag)
    (hv : decTable s.tag s.decLut (symbolAt s (coreReadIn s s.pos)) = some v) :
    pendingDecode s =
      (decodeText s.tag s.decLut ((inputItems s).drop (s.pos + 1))).map
        fun out => unpack4 s.ds[0] s.ds[1] s.ds[2] v ++ out := by
  rw [pendingDecode, symbols_pendingText hp hy hv, heldSymbols_three hg, decodeText]
  cases symbols s.tag s.decLut ((inputItems s).drop (s.pos + 1)) with
  | ok vs => rfl
  | error e => rfl

/-- With nothing held and no escape pending, the rest of the input is decoded afresh. -/
theorem pendingDecode_fresh (hg : s.gcnt = 0#3) (he : s.escPend = false) :
    pendingDecode s = decodeText s.tag s.decLut ((inputItems s).drop s.pos) := by
  rw [pendingDecode, pendingText, heldSymbols_zero hg, he, decodeText]
  show (symbols s.tag s.decLut ((inputItems s).drop s.pos)).bind _ = _
  cases symbols s.tag s.decLut ((inputItems s).drop s.pos) with
  | ok vs => rfl
  | error e => rfl

theorem pendingDecode_defect (hp : s.pos < s.inLen) (hy : symbolAt s (coreReadIn s s.pos) ≠ .direct s.tag)
    (hv : decTable s.tag s.decLut (symbolAt s (coreReadIn s s.pos)) = none) :
    pendingDecode s = .error (symbolAt s (coreReadIn s s.pos)).defect := by
  have stage1 : symbols s.tag s.decLut (pendingText s) =
      .error (symbolAt s (coreReadIn s s.pos)).defect := by
    rw [pendingText_eq hp]
    cases he : s.escPend with
    | true =>
      rw [symbolAt_pending he] at hv ⊢
      exact symbols_badDigit hv _
    | false =>
      rw [symbolAt_plain he] at hy hv ⊢
      exact symbols_unrecognized (fun hc => hy (congrArg _ hc)) hv _
  rw [pendingDecode, stage1]
  rfl

/-! ### The run of a decode -/

/-- The end micro-step answers what is pending: an open escape, or the group held (R101). -/
theorem microStep_end_answers (hm : s.mode = .dec) (hp : s.pos = s.inLen) (hg : s.gcnt.toNat < 4)
    (h : outRoom s.params (s.wpos + decMaxLen s.gcnt.toNat) = true) :
    ∃ t, microStep s = .next t ∧ t.busy = false ∧ EndsAs s t (pendingDecode s) := by
  have read : (inputItems s).drop s.pos = [] := List.drop_of_length_le (by rw [inputItems_length, hp])
  cases he : s.escPend with
  | true =>
    have answer : pendingDecode s = .error .invalidEscape := by
      rw [pendingDecode, pendingText, read, he, if_pos rfl, List.append_nil, symbols_openEscape]
      rfl
    rw [answer]
    exact ⟨_, microStep_end_pending hm hp.ge he, rfl, abortedAs_abort _ s⟩
  | false =>
    have answer : pendingDecode s = octetsOf (heldSymbols s) := by
      rw [pendingDecode, pendingText, read, he]
      exact congrArg octetsOf (List.append_nil _)
    have length : (heldSymbols s).length = s.gcnt.toNat := by
      rw [heldSymbols, List.length_take, Vector.length_toList]
      omega
    rw [answer]
    obtain ⟨hlen, hd⟩ | ⟨-, out, hout, hdec⟩ := octetsOf_cases (heldSymbols s)
    · rw [hd]
      have one : s.gcnt = 1#3 := BitVec.eq_of_toNat_eq (by simp; omega)
      exact ⟨_, microStep_end_dangling hm hp.ge he one, rfl, abortedAs_abort _ s⟩
    · rw [hout]
      rw [← length, ← hdec] at h
      exact ⟨_, microStep_end_held hm hp.ge he hg hout h, rfl, s.pos, s.ds, by rw [← he]⟩

/-- A running decode ends with what it has pending. -/
theorem runCore_decode (n : Nat) (hb : s.busy = true) (hm : s.mode = .dec) (hg : s.gcnt.toNat < 4)
    (hp : s.pos + n = s.inLen) (h : outRoom s.params (s.wpos + decMaxLen (s.gcnt.toNat + n)) = true) :
    ∃ t, runCore (n + 1) s = .next t ∧ EndsAs s t (pendingDecode s) := by
  induction n generalizing s with
  | zero =>
    obtain ⟨t, ht, hidle, hend⟩ := microStep_end_answers hm hp hg h
    exact ⟨t, by rw [runCore_running hb, ht, seq_next, runCore_idle hidle], hend⟩
  | succ n ih =>
    have hlt : s.pos < s.inLen := by omega
    have hnext : s.pos + 1 + n = s.inLen := by omega
    rw [runCore_running hb]
    by_cases hy : symbolAt s (coreReadIn s s.pos) = .direct s.tag
    · have room : outRoom s.params (s.wpos + decMaxLen (s.gcnt.toNat + n)) = true :=
        outRoom_of_le h (Nat.add_le_add_left (decMaxLen_mono (by omega)) _)
      rw [microStep_char_tag hb hm hlt hg hy, seq_next, ← pendingDecode_tag hlt hy]
      obtain ⟨t, ht, hend⟩ := ih (s := { s with pos := s.pos + 1, escPend := true }) hb hm hg hnext room
      exact ⟨t, ht, hend.of_read⟩
    cases hv : decTable s.tag s.decLut (symbolAt s (coreReadIn s s.pos)) with
    | none =>
      rw [microStep_char_defect hm hlt hy hv, seq_next, runCore_idle rfl, pendingDecode_defect hlt hy hv]
      exact ⟨_, rfl, rfl⟩
    | some v =>
      by_cases hopen : s.gcnt.toNat < 3
      · have grown : (s.gcnt + 1#3).toNat = s.gcnt.toNat + 1 := toNat_gcnt_add_one (by omega)
        have group : (s.gcnt + 1#3).toNat < 4 := by omega
        have room : outRoom s.params (s.wpos + decMaxLen ((s.gcnt + 1#3).toNat + n)) = true := by
          rw [grown, Nat.add_right_comm]
          exact h
        rw [microStep_char_open hb hm hlt hopen hy hv, seq_next, ← pendingDecode_symbol hlt hg hy hv]
        obtain ⟨t, ht, hend⟩ :=
          ih (s := resolveEscape v { s with pos := s.pos + 1 }) hb hm group hnext room
        exact ⟨t, ht, hend.of_read⟩
      · have hfull : s.gcnt = 3#3 := BitVec.eq_of_toNat_eq (by simp; omega)
        have bound : s.wpos + decMaxLen (s.gcnt.toNat + (n + 1)) = s.wpos + 3 + decMaxLen (0 + n) := by
          rw [hfull, show (3#3).toNat + (n + 1) = n + 4 by simp; omega, decMaxLen_add_four, Nat.zero_add]
          omega
        rw [bound] at h
        rw [microStep_char_full hb hm hlt hfull hy hv (outRoom_of_le h (Nat.le_add_right _ _)), seq_next,
          pendingDecode_full hlt hfull hy hv]
        obtain ⟨t, ht, hend⟩ := ih (s := { storeItems (unpack4 s.ds[0] s.ds[1] s.ds[2] v) s with
          pos := s.pos + 1, ds := s.ds.set 3 v, gcnt := 0#3, escPend := false }) hb hm (Nat.zero_lt_succ 3)
          hnext h
        rw [pendingDecode_fresh rfl rfl] at hend
        exact ⟨t, ht, hend.of_written⟩

end

/-- The octets stored from the state of acceptance, and completion, finish the operation (R101, R103). -/
theorem finishedWith_complete_acceptDec (out : List (BitVec 8)) (s : State) (pos : Nat)
    (ds : Vector Sextet 4) :
    FinishedWith out s
      (complete (storeItems out { acceptDec s with pos := pos, ds := ds, escPend := false })) :=
  ⟨by simp [complete, storeItems, acceptDec], fun i => by simp [Mem.read_writeAll]⟩

/-- An accepted decode ends with `Decode` of the input (R90, R103). -/
theorem exec_dec_endsAs {s : State} (hb : s.busy = false) (hc : s.cfgOk = true) (hcap : CapacityOk s) :
    ∃ t, exec .dec s = .next t ∧ EndsAs (acceptDec s) t (decodeText s.tag s.decLut (inputItems s)) := by
  have room : outRoom s.params (0 + decMaxLen (0 + s.inLen)) = true := by
    refine outRoom_of_le_encMaxLen hcap ?_
    rw [Nat.zero_add, Nat.zero_add]
    exact (decMaxLen_le _).trans (le_encMaxLen _)
  obtain ⟨t, ht, hend⟩ :=
    runCore_decode (s := acceptDec s) s.inLen rfl rfl (Nat.zero_lt_succ 3) (Nat.zero_add _) room
  have accepted : exec .dec s = runCore (s.inLen + 1) (acceptDec s) := by
    rw [exec, execDec, whenIdle_idle _ hb, if_pos hc]
  rw [pendingDecode_fresh rfl rfl] at hend
  exact ⟨t, accepted.trans ht, hend⟩

/-- Settles O38: the accepted decode has the whole input pending, and `OUT` has room for its octets. -/
theorem decComputesDecode : Obligations.DecComputesDecode := by
  intro s hb hc hcap
  obtain ⟨t, ht, hend⟩ := exec_dec_endsAs hb hc hcap
  refine ⟨fun out hout => ⟨t, ht, ?_⟩, fun e he => ⟨t, ht, ?_⟩⟩
  · rw [hout] at hend
    obtain ⟨pos, ds, rfl⟩ := hend
    exact finishedWith_complete_acceptDec out s pos ds
  · rw [he] at hend
    exact hend

end Sys2Proof.Machine

/-! ## O10, O35, O40: refused and failed commands -/

namespace Sys2Proof.Machine

/-- Settles O10: an illegal word of either row is accepted while idle, and raises `ILLEGAL_COMMAND`. -/
theorem illegalCommandChangesOnlyErr : Obligations.IllegalCommandChangesOnlyErr :=
  fun _ hb => ⟨exec_illegalOp hb, exec_illegalOperand hb⟩

/-! ### `ENC` and `DEC`, refused or accepted -/

section
variable {s : State}

theorem exec_enc_refused (hb : s.busy = false) (hc : s.cfgOk = false) :
    exec .enc s = .next { s with err := .notConfigured, outLen := 0 } := by
  rw [exec, execEnc, whenIdle_idle _ hb, if_neg (Bool.eq_false_iff.mp hc), raiseError_notConfigured]

theorem exec_dec_refused (hb : s.busy = false) (hc : s.cfgOk = false) :
    exec .dec s = .next { s with err := .notConfigured, outLen := 0 } := by
  rw [exec, execDec, whenIdle_idle _ hb, if_neg (Bool.eq_false_iff.mp hc), raiseError_notConfigured]

theorem exec_dec_accepted (hb : s.busy = false) (hc : s.cfgOk = true) :
    exec .dec s = runCore (s.inLen + 1) (acceptDec s) := by
  rw [exec, execDec, whenIdle_idle _ hb, if_pos hc]

end

/-- Settles O35: both commands are refused alike. -/
theorem notConfiguredRefusal : Obligations.NotConfiguredRefusal :=
  fun _ hb hc => ⟨exec_enc_refused hb hc, exec_dec_refused hb hc⟩

/-! ### How a running operation can fail -/

/-- No error is recorded, or the block is idle after a `MalformedInput` that leaves nothing to read (R118). A
step keeps it because nothing runs after an abort (R102). -/
def OkOrMalformed (t : State) : Prop :=
  t.err = .ok ∨ (t.err.malformed = true ∧ t.outLen = 0 ∧ t.busy = false)

section
variable {s t : State}

theorem OkOrMalformed.err_of_busy (h : OkOrMalformed s) (hb : s.busy = true) : s.err = .ok := by
  obtain h | ⟨-, -, hidle⟩ := h
  · exact h
  · cases hidle.symm.trans hb

theorem okOrMalformed_abort {e : ErrCode} (he : e.malformed = true) (s : State) :
    OkOrMalformed (abort e s) := .inr ⟨he, rfl, rfl⟩

theorem Symbol.defect_malformed (y : Symbol) : y.defect.malformed = true := by
  cases y <;> rfl

/-- A dispatch stores items and resets counts, or aborts on a dangling symbol. -/
theorem dispatch_okOrMalformed {eoi : Bool} (he : s.err = .ok) (h : dispatch eoi s = .next t) :
    OkOrMalformed t := by
  cases eoi with
  | false =>
    obtain ⟨-, rfl⟩ | ⟨-, -, l, -, rfl⟩ | ⟨-, -, l, -, rfl⟩ := dispatch_before_end_cases h
    all_goals exact .inl he
  | true =>
    obtain ⟨l, rfl⟩ | rfl := dispatch_at_end_cases h
    · exact .inl he
    · exact okOrMalformed_abort rfl s

/-- A character that completes no symbol of the decode table aborts; any other is followed by a dispatch. -/
theorem charStep_okOrMalformed (he : s.err = .ok) (h : charStep s = .next t) : OkOrMalformed t := by
  have dispatched {u : State}
      (hsel : exec (selectChar (coreReadIn s s.pos) s) { s with pos := s.pos + 1 } = .next u)
      (hu : u.err = .ok) : OkOrMalformed t := by
    rw [charStep_of_selected hsel] at h
    split at h
    · exact dispatch_okOrMalformed hu h
    · cases h
      exact .inl hu
  by_cases hy : symbolAt s (coreReadIn s s.pos) = .direct s.tag
  · exact dispatched (exec_selectChar_tag hy _) he
  cases hv : decTable s.tag s.decLut (symbolAt s (coreReadIn s s.pos)) with
  | some v => exact dispatched (exec_selectChar_symbol rfl rfl hy hv) he
  | none =>
    rw [charStep_of_selected (exec_selectChar_defect hy hv _), if_neg (by simp)] at h
    cases h
    exact okOrMalformed_abort (Symbol.defect_malformed _) _

theorem endStep_okOrMalformed (he : s.err = .ok) (h : endStep s = .next t) : OkOrMalformed t := by
  unfold endStep at h
  split at h
  · cases h
    exact okOrMalformed_abort rfl s
  · exact dispatch_okOrMalformed he h

theorem microStep_okOrMalformed (he : s.err = .ok) (h : microStep s = .next t) : OkOrMalformed t := by
  unfold microStep at h
  split at h <;> split at h
  · exact dispatch_okOrMalformed (s := loadOctet s) he h
  · exact dispatch_okOrMalformed he h
  · exact charStep_okOrMalformed he h
  · exact endStep_okOrMalformed he h

theorem runCore_okOrMalformed {n : Nat} (hs : OkOrMalformed s) (h : runCore n s = .next t) :
    OkOrMalformed t := by
  induction n generalizing s with
  | zero =>
    cases h
    exact hs
  | succ n ih =>
    cases hb : s.busy with
    | false =>
      rw [runCore_idle hb] at h
      cases h
      exact hs
    | true =>
      rw [runCore_running hb] at h
      obtain ⟨u, hu, ht⟩ := seq_eq_next h
      exact ih (microStep_okOrMalformed (hs.err_of_busy hb) hu) ht

/-- A `DEC` that leaves an error leaves nothing to read; the error is one of `MalformedInput` if it was
accepted (R115, R118). -/
theorem exec_dec_failed (hb : s.busy = false) (h : exec .dec s = .next t) (he : t.err ≠ .ok) :
    t.outLen = 0 ∧ (s.cfgOk = true → t.err.malformed = true) := by
  cases hc : s.cfgOk with
  | false =>
    rw [exec_dec_refused hb hc] at h
    cases h
    exact ⟨rfl, nofun⟩
  | true =>
    rw [exec_dec_accepted hb hc] at h
    obtain hok | ⟨hbad, hlen, -⟩ := runCore_okOrMalformed (.inl rfl) h
    · exact absurd hok he
    · exact ⟨hlen, fun _ => hbad⟩

/-- A `CFG` that leaves an error wrote nothing but it: the check comes before the first write (R60, R64). -/
theorem exec_cfg_failed {tlen : BitVec 2} {c : CharCode} (hb : s.busy = false)
    (h : exec (.cfg tlen c) s = .next t) (he : t.err ≠ .ok) :
    t = { s with err := .invalidConfiguration } := by
  by_cases hv : tlen = 1#2 ∧ isAlnum c = true
  · rw [exec_cfg_valid hb hv] at h
    cases h
    exact absurd rfl he
  · rw [exec_cfg_invalid hb hv] at h
    cases h
    rfl

end

/-- Settles O40: with `OUT_LEN = 0` nothing of `OUT` is readable, and a failed `CFG` writes `ERR` alone. -/
theorem failedCommandsShowNothing : Obligations.FailedCommandsShowNothing := by
  refine fun s t hb => ⟨fun h he => ?_, fun tlen c h he => ?_⟩
  · obtain ⟨hlen, hbad⟩ := exec_dec_failed hb h he
    exact ⟨hlen, hostReadOut_of_outLen hlen, hbad⟩
  · rw [exec_cfg_failed hb h he]
    exact ⟨rfl, rfl, rfl, rfl⟩

end Sys2Proof.Machine

/-! ## O43: every operation ends -/

namespace Sys2Proof.Machine

section
variable {s t : State}

/-! ### A micro-step takes an item, or is the last -/

theorem dispatch_before_end_pos (h : dispatch false s = .next t) : t.pos = s.pos := by
  obtain ⟨-, rfl⟩ | ⟨-, -, l, -, rfl⟩ | ⟨-, -, l, -, rfl⟩ := dispatch_before_end_cases h
  all_goals rfl

theorem dispatch_at_end_idle (h : dispatch true s = .next t) : t.busy = false := by
  obtain ⟨l, rfl⟩ | rfl := dispatch_at_end_cases h
  all_goals rfl

theorem endStep_idle (h : endStep s = .next t) : t.busy = false := by
  unfold endStep at h
  split at h
  · cases h
    rfl
  · exact dispatch_at_end_idle h

/-- A selected character aborts the decode, or leaves `POS` alone (R56, R100). -/
theorem selectedChar_pos {c : CharCode} (h : runSelected (selectChar c s) s = .next t)
    (hb : t.busy = true) : t.pos = s.pos := by
  obtain ⟨e, rfl⟩ | ⟨-, v, rfl⟩ | ⟨-, rfl⟩ | ⟨-, v, rfl⟩ := selectedChar_cases h
  · cases hb
  all_goals rfl

theorem charStep_pos (h : charStep s = .next t) (hb : t.busy = true) : t.pos = s.pos + 1 := by
  obtain ⟨u, hu, ht⟩ := seq_eq_next h
  split at ht
  · next hbu =>
    exact (dispatch_before_end_pos ht).trans
      (selectedChar_pos (s := { s with pos := s.pos + 1 }) hu hbu)
  · next hbu =>
    cases ht
    exact absurd hb hbu

/-- An operation still running after a micro-step has had an item to take, and has taken it (R81, R100): at the
end of the input every micro-step ends the operation (R82, R101). -/
theorem microStep_takes_item (h : microStep s = .next t) (hb : t.busy = true) :
    s.pos < s.inLen ∧ t.pos = s.pos + 1 := by
  obtain hp | hp := Nat.lt_or_ge s.pos s.inLen
  · refine ⟨hp, ?_⟩
    cases hm : s.mode with
    | enc => exact dispatch_before_end_pos (s := loadOctet s) ((microStep_load hm hp).symm.trans h)
    | dec => exact charStep_pos ((microStep_char hm hp).symm.trans h) hb
  · have hidle : t.busy = false := by
      cases hm : s.mode with
      | enc => exact dispatch_at_end_idle ((microStep_flush hm hp).symm.trans h)
      | dec => exact endStep_idle ((microStep_end hm hp).symm.trans h)
    cases hidle.symm.trans hb

/-! ### The run of an operation -/

/-- More micro-steps than items are left end the operation, by induction on the micro-steps: each that does not
end it leaves one item fewer. -/
theorem runCore_idle_of_items_lt {n : Nat} (hn : s.inLen - s.pos < n) (h : runCore n s = .next t) :
    t.busy = false := by
  induction n generalizing s with
  | zero => exact absurd hn (Nat.not_lt_zero _)
  | succ n ih =>
    cases hb : s.busy with
    | false =>
      rw [runCore_idle hb] at h
      cases h
      exact hb
    | true =>
      rw [runCore_running hb] at h
      obtain ⟨u, hu, ht⟩ := seq_eq_next h
      cases hbu : u.busy with
      | false =>
        rw [runCore_idle hbu] at ht
        cases ht
        exact hbu
      | true =>
        obtain ⟨hp, hpos⟩ := microStep_takes_item hu hbu
        have hlen : u.inLen = s.inLen := (microStep_keepsCoreFrame s u hu).inLen
        exact ih (by omega) ht

/-- With no action of the host pending, an idle block waits (R10, R130). -/
theorem step_idle (hh : s.host = []) (hb : s.busy = false) : step s = .next s := by
  unfold step nextMove
  rw [hh]
  exact if_neg (Bool.eq_false_iff.mp hb)

/-- With no action of the host pending, the machine's run is the core's: no micro-step adds one. -/
theorem runSteps_eq_runCore (n : Nat) (hh : s.host = []) : runSteps n s = runCore n s := by
  induction n generalizing s with
  | zero => rfl
  | succ n ih =>
    rw [runSteps_succ]
    cases hb : s.busy with
    | false => rw [step_idle hh hb, seq_next, ih hh, runCore_idle hb, runCore_idle hb]
    | true =>
      rw [step_running hh hb, runCore_running hb]
      cases hu : microStep s with
      | next u => exact ih ((microStep_keepsCoreFrame s u hu).host.trans hh)
      | fault f => rfl
      | refused q => rfl

end

/-- Settles O43: the run answers because the state is good, and is over because each micro-step takes an
item. -/
theorem everyOperationEnds : Obligations.EveryOperationEnds := by
  intro s hinv hh
  obtain ⟨t, ht⟩ := hinv.runCore_answers (s.inLen - s.pos + 1)
  exact ⟨t, (runSteps_eq_runCore _ hh).trans ht, runCore_idle_of_items_lt (Nat.lt_succ_self _) ht⟩

end Sys2Proof.Machine

/-! ## O36, O54: the host while an operation runs -/

namespace Sys2Proof.Machine

section
variable {s : State}

/-! ### Commands -/

theorem exec_command_busy (hb : s.busy = true) (w : BitVec 12) : exec (decodeCmd w) s = .next s := by
  obtain ⟨tlen, c, hw⟩ | hw | hw | ⟨low, hw⟩ | ⟨m, low, hw⟩ := decodeCmd_cases w <;> rw [hw]
  all_goals exact whenIdle_busy _ hb

theorem issueCmd_busy (hb : s.busy = true) (w : BitVec 12) : issueCmd w s = .next s := by
  unfold issueCmd
  split
  · exact whenIdle_busy _ hb
  split
  · exact whenIdle_busy _ hb
  · exact exec_command_busy hb w

/-! ### Buffer accesses -/

theorem hostReadIn_busy (hb : s.busy = true) (i : Nat) : hostReadIn s i = none := if_pos hb

theorem hostReadOut_busy (hb : s.busy = true) (i : Nat) : hostReadOut s i = none := if_pos hb

theorem hostReadLut_busy (hb : s.busy = true) (a : Nat) : hostReadLut s a = none := if_pos hb

theorem replyCount_busy (hb : s.busy = true) (n : Nat) : replyCount s n = .refused := if_pos hb

theorem hostWriteIn_busy (hb : s.busy = true) (i : Nat) (v : BitVec 8) : hostWriteIn i v s = s := by
  simp [hostWriteIn, hb]

theorem hostWriteInLen_busy (hb : s.busy = true) (n : Nat) : hostWriteInLen n s = s := by
  simp [hostWriteInLen, hb]

/-- A buffer access to a busy block: a write is dropped, a read is refused (R134). -/
theorem hostMove_access_busy {a : HostAct} (hb : s.busy = true) (ha : a.isBufferAccess = true) :
    hostMove a s = .next { s with reply := .silent } ∨
      hostMove a s = .next { s with reply := .refused } := by
  cases a with
  | writeIn i v => exact .inl (by rw [hostMove, hostWriteIn_busy hb])
  | writeInLen n => exact .inl (by rw [hostMove, hostWriteInLen_busy hb])
  | writeOut | writeOutLen | writeLut => exact .inl rfl
  | readIn i => exact .inr (by rw [hostMove, hostReadIn_busy hb, replyItem])
  | readOut i => exact .inr (by rw [hostMove, hostReadOut_busy hb, replyItem])
  | readLut a => exact .inr (by rw [hostMove, hostReadLut_busy hb, replyItem])
  | readInLen | readOutLen => exact .inr (by rw [hostMove, replyCount_busy hb])
  | call | issue | wait | readStatus | writeStatus | reset => cases ha

theorem Running.statusWord (r : Running s) : statusWord s = 0b11000#5 := by
  rw [Machine.statusWord, r.cfgOk, r.busy, r.err]
  rfl

end

/-- Settles O36: at both levels a command is asked first whether the block is idle. -/
theorem commandsWhileBusyChangeNothing : Obligations.CommandsWhileBusyChangeNothing := by
  rintro s w rest hb (h | h)
  · exact (step_hostAct h).trans (exec_command_busy (s := s.withHost rest) hb w)
  · exact (step_hostAct h).trans (issueCmd_busy (s := s.withHost rest) hb w)

/-- Settles O54: each buffer access is asked first whether the block is idle, and the invariant fixes the
fields of `STATUS` while it is not. -/
theorem accessesWhileBusyHaveNoEffect : Obligations.AccessesWhileBusyHaveNoEffect := by
  intro s a rest hinv hb h
  refine ⟨fun ha => ?_, fun ha => ?_⟩
  · rw [step_hostAct h]
    obtain dropped | refused := hostMove_access_busy (s := s.withHost rest) hb ha
    · exact ⟨.silent, .inl rfl, dropped⟩
    · exact ⟨.refused, .inr rfl, refused⟩
  · subst ha
    obtain ⟨-, statusRead, -⟩ := statusWordLayout
    rw [statusRead s rest h, (hinv.running hb).statusWord]

end Sys2Proof.Machine

/-! ## O55: reset -/

namespace Sys2Proof.Machine

theorem hostReadIn_of_inLen {s : State} (hb : s.busy = false) (h : s.inLen = 0) (i : Nat) :
    hostReadIn s i = none := by
  rw [hostReadIn_idle hb, h, if_neg (Nat.not_lt_zero i)]

theorem hostReadLut_unconfigured {s : State} (hb : s.busy = false) (hc : s.cfgOk = false) (a : Nat) :
    hostReadLut s a = none := by
  obtain ⟨-, unreadable, -⟩ := lutSpaceMap s hb
  exact unreadable hc a

/-- Settles O55: both lengths are 0 and `CFG_OK` is 0, so that nothing is readable, and an idle block waits. -/
theorem resetLeavesAnIdleUnconfiguredBlock : Obligations.ResetLeavesAnIdleUnconfiguredBlock := fun s rest h =>
  ⟨resetBlock (s.withHost rest), step_hostAct h, rfl, rfl, rfl, rfl, rfl,
    hostReadIn_of_inLen rfl rfl, hostReadOut_of_outLen rfl, hostReadLut_unconfigured rfl rfl,
    rfl, rfl, step_idle rfl rfl⟩

end Sys2Proof.Machine
